-- ==== Sys2Proof/Word.lean ====
section
/-! DEFINITION. The byte (one base-256 digit, 00_scope.md R11) and the 32-bit register word (10_state.md section 4). -/

namespace Sys2Proof

/-- A digit of a base-256 number, a key byte, a stream byte (00_scope.md R11). -/
abbrev Byte := BitVec 8

/-- A host register or a command word (10_state.md section 4, 30_encoding.md R71). -/
abbrev Word := BitVec 32

end Sys2Proof
end

