-- ==== Sys2Proof/Config.lean ====
section
/-! DEFINITION. What the build fixes (00_scope.md R7, R9) and the free values (93_implementation_defined.md).
The constants without a body are free values: nothing can be proved about which value they are.
M_MAX, BASE and INIT_VIEW, the OPEN parameters, are fields of State (log 1, log 2, log 3). -/

namespace Sys2Proof.Config

/-- `PADDING = 10` (R7). -/
def padding : Nat := 10

/-- `RING = 11`, the number of term slots (R7). -/
def ring : Nat := 11

/-- The slot number that names the Sensitivity register in DRD and DWR (30_encoding.md R73). -/
def sensSlot : Nat := 11

/-- Bytes of the register window (20_memory.md R50). -/
def windowBytes : Nat := 256

/-- The largest `M_MAX` a build may have (R9). -/
def mMaxLimit : Nat := 65525

/-- `M_MAX` of the build `State.reset` describes. DESIGN CHOICE, unsafe for a claim about `State.reset` (log 1):
the spec leaves it OPEN; every other statement is about a state with any `mMax`. -/
def mMaxAtReset : Nat := 64

/-- `BASE` of the platform `State.reset` describes. DESIGN CHOICE, unsafe for a claim about `State.reset` (log 2). -/
def baseAtReset : Nat := 0

/-- How the term-9 view stands after OPEN (R9). -/
inductive InitView where
  /-- The view is consumed: the first byte step fetches term 10. -/
  | exhausted
  /-- The view is unread: the other value of the parameter (92_eei_decisions.md D20). -/
  | fresh
deriving DecidableEq, Repr

/-- `INIT_VIEW` of the block `State.reset` describes: this spec's value (R9, 90_conflicts.md C2; log 3). -/
def initViewAtReset : InitView := .exhausted

/-- `POOL_BITS = 64`, the width of the carry pool (R9, 93_implementation_defined.md I3). -/
abbrev poolBits : Nat := 64

/-- `N_BITS = 64`, the width of the visible term counter (R9). -/
abbrev nBits : Nat := 64

/-- The constant of register ID (10_state.md R34). -/
def idWord : Word := 0x43565201

/-- Free value: what the `n`-th read returns of a register that reads `any` while BUSY = 1 (20_memory.md R61; log 7). -/
opaque busyRead : Nat → Word

/-- Free value: the hidden buffer ACC after a command or a reset (10_state.md R25, R49; log 8). -/
opaque hiddenAcc : Nat → Nat

/-- Free value: the hidden buffer SCR after a command or a reset (10_state.md R25, R49; log 8). -/
opaque hiddenScr : Nat → Nat

/-- Free value: VIEW_POS.VIEW_OFF where `W_T - VIEW_LEN` is negative, by KEY_LEN and VIEW_LEN: the spec states no
value there (10_state.md R45; log 9). -/
opaque viewOffBelowZero : BitVec 16 → BitVec 16 → BitVec 16

end Sys2Proof.Config
end

