-- ==== Sys2Proof/Syntax.lean ====
section
/-! DEFINITION. The sixteen commands of the opcode map (30_encoding.md R75), one constructor per row of
spec/opcode_table.json. Slots, digit indices and lengths are numbers (R73, R74); whether they are in range is decided
when the command runs (R78). -/

namespace Sys2Proof

/-- A command with its operands. -/
inductive Instr where
  /-- NOP (45_host_and_diag.md R220). -/
  | nop
  /-- KEY_CLEAR (43_keygen_fsm.md R160). -/
  | keyClear
  /-- KEY_PUSH b (43_keygen_fsm.md R161). -/
  | keyPush (b : Byte)
  /-- OPEN_ENC (44_xform_engine.md R191). -/
  | openEnc
  /-- OPEN_DEC (44_xform_engine.md R192). -/
  | openDec
  /-- CLOSE (44_xform_engine.md R197). -/
  | close
  /-- XFORM (44_xform_engine.md R194). -/
  | xform
  /-- RUN (44_xform_engine.md R195). -/
  | run
  /-- CHAIN_NEXT (43_keygen_fsm.md R170). -/
  | chainNext
  /-- BIGADD t<dst>, t<src>, len (40_big_add.md R104). -/
  | bigAdd (dst src len : Nat)
  /-- SENS_LOAD t<src> (42_sensitivity.md R144). -/
  | sensLoad (src : Nat)
  /-- SENS_ADD t<src> (42_sensitivity.md R145). -/
  | sensAdd (src : Nat)
  /-- SENS_SQFOLD (41_squareover.md R124). -/
  | sensSqfold
  /-- SENS_EXTRACT t<dst> (42_sensitivity.md R146). -/
  | sensExtract (dst : Nat)
  /-- DRD slot, k (45_host_and_diag.md R222). -/
  | drd (slot k : Nat)
  /-- DWR slot, k (45_host_and_diag.md R223). -/
  | dwr (slot k : Nat)
deriving DecidableEq, Repr

end Sys2Proof
end

