-- ==== Sys2Proof/WellFormed.lean ====
section
/-! DEFINITION. A command is well formed when its operands fit the fields of its format (30_encoding.md R71, R72). -/

namespace Sys2Proof

/-- A slot operand fits the 4-bit field S1 or S2 (R71). -/
def slotFits (slot : Nat) : Bool := slot < 16

/-- A digit index or a length fits the 16-bit field IMM (R71, R74). -/
def immFits (v : Nat) : Bool := v < 65536

/-- The command has an encoding (R72, R81). -/
def Instr.wf : Instr → Bool
  | .nop | .keyClear | .keyPush _ | .openEnc | .openDec | .close | .xform | .run | .chainNext | .sensSqfold => true
  | .bigAdd dst src len => slotFits dst && slotFits src && immFits len
  | .sensLoad src => slotFits src
  | .sensAdd src => slotFits src
  | .sensExtract dst => slotFits dst
  | .drd slot k => slotFits slot && immFits k
  | .dwr slot k => slotFits slot && immFits k

end Sys2Proof
end

