-- ==== Sys2Proof/Decode.lean ====
section
/-! DEFINITION. The command decoder, total on all words (30_encoding.md R78), the encoder (R81) and the opcode table. -/

namespace Sys2Proof

/-- Why a word is no command (30_encoding.md R77); either makes the block raise ILLEGAL_CMD. -/
inductive DecodeError where
  /-- R77 (a): the OPC value is not in the opcode map. -/
  | unassignedOpcode (opc : BitVec 8)
  /-- R77 (b): a bit of a field the format reserves is not zero. -/
  | reservedFieldNonZero (opc : BitVec 8)
deriving DecidableEq, Repr

/-- Field OPC, bits [31:24] (R71). -/
def opcField (w : Word) : BitVec 8 := w.extractLsb' 24 8

/-- Field S1, bits [23:20] (R71). -/
def s1Field (w : Word) : BitVec 4 := w.extractLsb' 20 4

/-- Field S2, bits [19:16] (R71). -/
def s2Field (w : Word) : BitVec 4 := w.extractLsb' 16 4

/-- Field IMM, bits [15:0] (R71). -/
def immField (w : Word) : BitVec 16 := w.extractLsb' 0 16

/-- The byte operand of format CFB, IMM[7:0] (R72). -/
def byteField (w : Word) : Byte := w.extractLsb' 0 8

/-- The command, if the format's reserved bits, `width` bits from bit `low`, are zero (R72, R77). -/
def ifReservedZero (w : Word) (low width : Nat) (i : Instr) : Except DecodeError Instr :=
  if w.extractLsb' low width = 0 then .ok i else .error (.reservedFieldNonZero (opcField w))

/-- The command a word stands for, or why it is none (R72, R75, R77, R78). -/
def decode (w : Word) : Except DecodeError Instr :=
  match (opcField w).toNat with
  | 0x00 => ifReservedZero w 0 24 .nop
  | 0x01 => ifReservedZero w 0 24 .keyClear
  | 0x02 => ifReservedZero w 8 16 (.keyPush (byteField w))
  | 0x08 => ifReservedZero w 0 24 .openEnc
  | 0x09 => ifReservedZero w 0 24 .openDec
  | 0x0A => ifReservedZero w 0 24 .close
  | 0x10 => ifReservedZero w 0 24 .xform
  | 0x11 => ifReservedZero w 0 24 .run
  | 0x12 => ifReservedZero w 0 24 .chainNext
  | 0x20 => .ok (.bigAdd (s1Field w).toNat (s2Field w).toNat (immField w).toNat)
  | 0x28 => ifReservedZero w 0 20 (.sensLoad (s1Field w).toNat)
  | 0x29 => ifReservedZero w 0 20 (.sensAdd (s1Field w).toNat)
  | 0x2A => ifReservedZero w 0 24 .sensSqfold
  | 0x2B => ifReservedZero w 0 20 (.sensExtract (s1Field w).toNat)
  | 0x30 => ifReservedZero w 16 4 (.drd (s1Field w).toNat (immField w).toNat)
  | 0x31 => ifReservedZero w 16 4 (.dwr (s1Field w).toNat (immField w).toNat)
  | _ => .error (.unassignedOpcode (opcField w))

/-- The command as an option: `none` where the decoder refuses the word. -/
def decodeWord (w : Word) : Option Instr :=
  match decode w with
  | .ok i => some i
  | .error _ => none

/-- The decoder's answer on a row's word, its bits numbered as spec/opcode_table.json numbers them: one command is one
32-bit word written whole to CMD (R71, 20_memory.md R54), and the bits above `nbits` are zero. -/
def decodeTableWord (nbits w : Nat) : Option Instr := decodeWord (BitVec.ofNat 32 (w % 2 ^ nbits))

/-- The opcode of a command (R75). -/
def opcodeOf : Instr → BitVec 8
  | .nop => 0x00
  | .keyClear => 0x01
  | .keyPush _ => 0x02
  | .openEnc => 0x08
  | .openDec => 0x09
  | .close => 0x0A
  | .xform => 0x10
  | .run => 0x11
  | .chainNext => 0x12
  | .bigAdd _ _ _ => 0x20
  | .sensLoad _ => 0x28
  | .sensAdd _ => 0x29
  | .sensSqfold => 0x2A
  | .sensExtract _ => 0x2B
  | .drd _ _ => 0x30
  | .dwr _ _ => 0x31

/-- A command word from its four fields (R71, R81). -/
def packFields (opc : BitVec 8) (s1 s2 : BitVec 4) (imm : BitVec 16) : Word := opc ++ s1 ++ s2 ++ imm

/-- The word of a command: unused fields are zero (R81). -/
def encode (i : Instr) : Word :=
  match i with
  | .keyPush b => packFields (opcodeOf i) 0 0 (b.setWidth 16)
  | .bigAdd dst src len => packFields (opcodeOf i) (BitVec.ofNat 4 dst) (BitVec.ofNat 4 src) (BitVec.ofNat 16 len)
  | .sensLoad src => packFields (opcodeOf i) (BitVec.ofNat 4 src) 0 0
  | .sensAdd src => packFields (opcodeOf i) (BitVec.ofNat 4 src) 0 0
  | .sensExtract dst => packFields (opcodeOf i) (BitVec.ofNat 4 dst) 0 0
  | .drd slot k => packFields (opcodeOf i) (BitVec.ofNat 4 slot) 0 (BitVec.ofNat 16 k)
  | .dwr slot k => packFields (opcodeOf i) (BitVec.ofNat 4 slot) 0 (BitVec.ofNat 16 k)
  | .nop | .keyClear | .openEnc | .openDec | .close | .xform | .run | .chainNext | .sensSqfold =>
      packFields (opcodeOf i) 0 0 0

/-- A row of the opcode table: a word is of the row when its bits under `mask` are `bits`. -/
structure OpcodeRow where
  mnemonic : String
  bits : Word
  mask : Word
deriving DecidableEq, Repr

/-- spec/opcode_table.json, row by row (R75, R77). -/
def opcodeTable : List OpcodeRow :=
  [ ⟨"NOP", 0x00000000, 0xFFFFFFFF⟩, ⟨"KEY_CLEAR", 0x01000000, 0xFFFFFFFF⟩, ⟨"KEY_PUSH", 0x02000000, 0xFFFFFF00⟩,
    ⟨"OPEN_ENC", 0x08000000, 0xFFFFFFFF⟩, ⟨"OPEN_DEC", 0x09000000, 0xFFFFFFFF⟩, ⟨"CLOSE", 0x0A000000, 0xFFFFFFFF⟩,
    ⟨"XFORM", 0x10000000, 0xFFFFFFFF⟩, ⟨"RUN", 0x11000000, 0xFFFFFFFF⟩, ⟨"CHAIN_NEXT", 0x12000000, 0xFFFFFFFF⟩,
    ⟨"BIGADD", 0x20000000, 0xFF000000⟩, ⟨"SENS_LOAD", 0x28000000, 0xFF0FFFFF⟩, ⟨"SENS_ADD", 0x29000000, 0xFF0FFFFF⟩,
    ⟨"SENS_SQFOLD", 0x2A000000, 0xFFFFFFFF⟩, ⟨"SENS_EXTRACT", 0x2B000000, 0xFF0FFFFF⟩,
    ⟨"DRD", 0x30000000, 0xFF0F0000⟩, ⟨"DWR", 0x31000000, 0xFF0F0000⟩ ]

/-- The word is of the row. -/
def OpcodeRow.covers (r : OpcodeRow) (w : Word) : Bool := w &&& r.mask == r.bits

end Sys2Proof
end

