-- ==== Sys2Proof/Machine/State.lean ====
section
/-! DEFINITION. The state of the block and of its surroundings (10_state.md), the reasons the model stops, and the state
after reset (R49). Everything is plain data. -/

namespace Sys2Proof.Machine

/-- Byte storage: (address, byte) pairs, addresses rising, no pair equal to what an unlisted address reads as
(`Memory.wf` in Machine/Memory.lean). -/
abbrev Memory := List Host.Cell

/-- MODE (R32): 0 encrypt, 1 decrypt. -/
inductive Mode where
  | encrypt
  | decrypt
deriving DecidableEq, Repr

/-- STATUS.STATE (R37): 0 IDLE, 1 READY, 7 FAULT; no other value is ever produced. -/
inductive EngineState where
  | idle
  | ready
  | fault
deriving DecidableEq, Repr

/-- The error codes ERR may hold (60_exceptions.md R240). -/
inductive ErrCode where
  | none
  | invalidKey
  | allocationFailure
  | sensitivityOverflow
  | ioSource
  | ioSink
  | illegalCmd
  | illegalState
  | illegalOperand
  | poolOverflow
deriving DecidableEq, Repr

/-- The arguments of `raise Fault(code, info0, info1)` (60_exceptions.md R241). -/
structure FaultInfo where
  code  : ErrCode
  info0 : Word
  info1 : Word
deriving DecidableEq, Repr

/-- The answer of a port transaction: a value or `Err(e)`, `e` a 32-bit code of the collaborator (00_scope.md R14,
45_host_and_diag.md R226 to R229). -/
inductive Answer (α : Type) where
  | ok (value : α)
  | err (e : Word)
deriving DecidableEq, Repr

/-- A port transaction the core has made, with its answer (R226 to R229). -/
inductive PortEvent where
  | hasMore (a : Answer Bool)
  | next (a : Answer Byte)
  | write (b : Byte) (a : Answer Unit)
  | flush (a : Answer Unit)
deriving DecidableEq, Repr

/-- How far the in-flight command is (R33). Only RUN leaves `top`. -/
inductive Phase where
  /-- At the top of the command's pseudocode; for RUN, at the top of its loop. -/
  | top
  /-- RUN: `SRC.has_more()` answered true; `SRC.next()` is next. -/
  | needByte
  /-- RUN: `SRC.next()` answered this byte; its byte step is next. -/
  | haveByte (b : Byte)
  /-- RUN: the byte step produced this byte; `SNK.write` is next. -/
  | putByte (out : Byte)
  /-- RUN: the source has ended; the last `SNK.flush()` is next. -/
  | finalFlush
  /-- RUN: this fault waits for the flush of 60_exceptions.md R255. -/
  | faultFlush (f : FaultInfo)
deriving DecidableEq, Repr

/-- The in-flight command (R33): its word, the byte of DIN latched at its acceptance (30_encoding.md R70), its progress. -/
structure InFlight where
  word  : Word
  din   : Byte
  phase : Phase
deriving DecidableEq, Repr

/-- A host access: `MemRead` or `MemWrite` of `width` bytes at a host address (20_memory.md R59). -/
inductive HostOp where
  | read (width addr : Nat)
  | write (width addr : Nat) (v : Word)
deriving DecidableEq, Repr

/-- Which agent moves, and what the host does (45_host_and_diag.md R225; log 4). -/
inductive Event where
  /-- The core takes one step. -/
  | core
  /-- The host makes one access. -/
  | host (op : HostOp)
  /-- The host polls STATUS until BUSY = 0 (the pseudo-operation WAIT, 30_encoding.md R80); the core moves meanwhile. -/
  | hostWait
  /-- The platform's hard reset (70_reset_and_hazards.md R270). -/
  | hardReset
deriving DecidableEq, Repr

/-- The block, its parameters, and its surroundings as far as they act on it. -/
structure State where
  /-- M_MAX (00_scope.md R9, register PARAM R35); no step writes it. -/
  mMax : Nat
  /-- BASE (20_memory.md R51); no step writes it. -/
  base : Nat
  /-- INIT_VIEW (00_scope.md R9); no step writes it. -/
  initView : Config.InitView
  /-- KEY (R22): address `i` holds `KEY[i]`. -/
  key : Memory
  /-- T[0..10] and SENS (R23, R24): digit `k` of a slot at `digitAddr slot k`. -/
  digits : Memory
  /-- ACC (R25), hidden. -/
  acc : Nat
  /-- SCR (R25), hidden. -/
  scr : Nat
  /-- KEY_LEN (R43). -/
  keyLen : BitVec 16
  /-- N (R26). -/
  n : BitVec Config.nBits
  /-- E (R27). -/
  e : Fin 11
  /-- VIEW_LEN (R28). -/
  viewLen : BitVec 16
  /-- VIEW_CUR (R28). -/
  viewCur : BitVec 16
  /-- J (R29). -/
  j : BitVec 16
  /-- POOL (R30). -/
  pool : BitVec Config.poolBits
  /-- PREV (R31). -/
  prev : Byte
  /-- MODE (R32). -/
  mode : Mode
  /-- STATUS.STATE (R37). -/
  state : EngineState
  /-- The in-flight command (R33); STATUS.BUSY is whether there is one. -/
  inFlight : Option InFlight
  /-- STATUS.DONE (R37). -/
  done : Bool
  /-- STATUS.OVR (R37). -/
  ovr : Bool
  /-- STATUS.LASTOP (R37). -/
  lastOp : BitVec 8
  /-- CTRL.IE_DONE (R36). -/
  ieDone : Bool
  /-- CTRL.IE_FAULT (R36). -/
  ieFault : Bool
  /-- DIN (R39). -/
  din : Byte
  /-- DOUT (R40). -/
  dout : Byte
  /-- RESULT (R41). -/
  result : Word
  /-- ERR (R42). -/
  err : ErrCode
  /-- ERR_INFO0 (R42). -/
  errInfo0 : Word
  /-- ERR_INFO1 (R42). -/
  errInfo1 : Word
  /-- The answers `SRC.has_more()` will give, oldest first (R226; log 6). -/
  srcMore : List (Answer Bool)
  /-- The answers `SRC.next()` will give (R227; log 6). -/
  srcNext : List (Answer Byte)
  /-- The answers `SNK.write` will give (R228; log 6). -/
  snkWrite : List (Answer Unit)
  /-- The answers `SNK.flush()` will give (R229; log 6). -/
  snkFlush : List (Answer Unit)
  /-- Every port transaction made, newest first. -/
  trace : List PortEvent
  /-- The agents' coming moves (log 4). -/
  events : List Event
  /-- What the host's last read returned. -/
  rdata : Option Word
  /-- The model's own counter behind the free values (log 7, log 8). -/
  freeCtr : Nat
deriving DecidableEq, Repr

/-- Why the model stops with a fault. Every fault of the BLOCK (60_exceptions.md R240) is a next state instead. -/
inductive Fault where
  /-- Raised by a host access outside the register window: R56 gives it no step. Safe: nothing is claimed past it. -/
  | outsideWindow (addr : Nat)
deriving DecidableEq, Repr

/-- Why the model refuses a step. -/
inductive Refusal where
  /-- Raised by an arm of `exec` without a meaning (there is none). Safe. -/
  | notModelled (mnemonic : String)
  /-- Raised by a host access within the window whose width is not 32 bits or whose offset is not a multiple of 4: R56
  refuses it. Safe: nothing is claimed past it. -/
  | accessForm (width addr : Nat)
deriving DecidableEq, Repr

/-- The state after reset (R49, 70_reset_and_hazards.md R270), for the build and platform of log 1 and log 2, with nothing
pending around the block (log 18) and the hidden buffers at 0 (log 8). -/
def State.reset : State where
  mMax := Config.mMaxAtReset
  base := Config.baseAtReset
  initView := Config.initViewAtReset
  key := []
  digits := []
  acc := 0
  scr := 0
  keyLen := 0
  n := 0
  e := 0
  viewLen := 0
  viewCur := 0
  j := 0
  pool := 0
  prev := 0
  mode := .encrypt
  state := .idle
  inFlight := none
  done := false
  ovr := false
  lastOp := 0
  ieDone := false
  ieFault := false
  din := 0
  dout := 0
  result := 0
  err := .none
  errInfo0 := 0
  errInfo1 := 0
  srcMore := []
  srcNext := []
  snkWrite := []
  snkFlush := []
  trace := []
  events := []
  rdata := none
  freeCtr := 0

end Sys2Proof.Machine
end

