-- ==== Sys2Proof/Machine/Memory.lean ====
section
/-! DEFINITION. Byte storage in canonical form, and the layout of the internal digit space (20_memory.md R50, R52). -/

namespace Sys2Proof.Machine

/-- What an unlisted address reads as: 0, the reset contents of KEY, T and SENS (10_state.md R49; log 15). -/
def Memory.unlisted : Byte := 0

/-- The byte at an address. -/
def Memory.read : Memory → Nat → Byte
  | [], _ => Memory.unlisted
  | (a, b) :: rest, x => if x = a then b else Memory.read rest x

/-- Store a byte, keeping the canonical form. -/
def Memory.write : Memory → Nat → Byte → Memory
  | [], x, v => if v = Memory.unlisted then [] else [(x, v)]
  | (a, b) :: rest, x, v =>
    if x < a then
      if v = Memory.unlisted then (a, b) :: rest else (x, v) :: (a, b) :: rest
    else if x = a then
      if v = Memory.unlisted then rest else (x, v) :: rest
    else
      (a, b) :: Memory.write rest x v

/-- Store bytes at rising addresses from `x`. -/
def Memory.writeList : Memory → Nat → List Byte → Memory
  | m, _, [] => m
  | m, x, b :: bs => Memory.writeList (m.write x b) (x + 1) bs

/-- Canonical form with every address at least `lo`. -/
def Memory.wfFrom : Nat → Memory → Bool
  | _, [] => true
  | lo, (a, b) :: rest => decide (lo ≤ a) && decide (b ≠ Memory.unlisted) && Memory.wfFrom (a + 1) rest

/-- Canonical form: addresses strictly rising, no pair equal to what an unlisted address reads as. -/
def Memory.wf (m : Memory) : Bool := Memory.wfFrom 0 m

/-- Addresses set aside for one slot of the digit space: more than the largest width `65535 + PADDING` (log 15). -/
def slotStride : Nat := 131072

/-- The address of digit `k` of a slot: slots 0 to 10 are T, slot 11 is SENS (20_memory.md R50, R52; log 15). -/
def digitAddr (slot k : Nat) : Nat := slot * slotStride + k

/-- Digits `0 .. width-1` of a slot, digit 0 first (00_scope.md R11). -/
def Memory.readSlot (m : Memory) (slot width : Nat) : List Byte :=
  (List.range width).map fun k => m.read (digitAddr slot k)

/-- Store digits `0, 1, ...` of a slot; the digits above are untouched (10_state.md R23). -/
def Memory.writeSlot (m : Memory) (slot : Nat) (ds : List Byte) : Memory := m.writeList (digitAddr slot 0) ds

end Sys2Proof.Machine
end

