-- ==== Sys2Proof/Machine/Digits.lean ====
section
/-! DEFINITION. Base-256 numbers (00_scope.md R10 to R12) and unit 1, the truncating addition (40_big_add.md R100 to R105). -/

namespace Sys2Proof.Machine

/-- `digit(v, k)` (R11). -/
def digit (v k : Nat) : Byte := BitVec.ofNat 8 (v / 256 ^ k % 256)

/-- The value of a digit buffer, digit 0 first: the sum of `d[k] * 256^k` (R11). -/
def valDigits : List Byte → Nat
  | [] => 0
  | d :: ds => d.toNat + 256 * valDigits ds

/-- The `width` low digits of a value, digit 0 first (R11). -/
def toDigits : Nat → Nat → List Byte
  | 0, _ => []
  | width + 1, v => BitVec.ofNat 8 (v % 256) :: toDigits width (v / 256)

/-- Significant length: the least `L` with `v < 256^L` (R12). -/
def siglen (v : Nat) : Nat := if v = 0 then 0 else Nat.log2 v / 8 + 1

/-- The digit loop of `add_trunc` from carry `c`: one round per output digit, the input zero-extended (40_big_add.md R101).
An input longer than the output is never presented; its further digits would be ignored (R100; log 14). -/
def addDigits : List Byte → List Byte → Nat → List Byte × Nat
  | [], _, c => ([], c)
  | o :: os, is, c =>
    let sum := o.toNat + (is.headD 0).toNat + c
    let rest := addDigits os is.tail (sum / 256)
    (BitVec.ofNat 8 (sum % 256) :: rest.1, rest.2)

/-- What unit 1 answers: the new output operand, the carry-out, the significant length of the result (R100). -/
structure AddResult where
  out   : List Byte
  carry : Nat
  len   : Nat
deriving DecidableEq, Repr

/-- `add_trunc(W, O, I, len)` with `W` and `len` the lengths of the operands (R101). -/
def addTrunc (out inp : List Byte) : AddResult :=
  let r := addDigits out inp 0
  ⟨r.1, r.2, siglen (valDigits r.1)⟩

end Sys2Proof.Machine
end

