-- ==== Sys2Proof/Machine/Ops.lean ====
section
/-! DEFINITION. The named operations every command is made of: widths and slots (00_scope.md R8, 10_state.md R23, R24), the
in-flight command and its completion (30_encoding.md R70), taking a fault (60_exceptions.md R241) and the one way out of it,
reset (70_reset_and_hazards.md R270), and the four port transactions (45_host_and_diag.md R226 to R229). -/

namespace Sys2Proof.Machine

/-! ## Widths -/

/-- `m`, the password's length in bytes (R8). -/
def State.m (s : State) : Nat := s.keyLen.toNat

/-- `W_T`, the active width of every slot (R8, 10_state.md R23). -/
def State.wT (s : State) : Nat := s.m + Config.padding

/-- `W_S`, the Sensitivity working width (R8). -/
def State.wS (s : State) : Nat := s.wT - 1

/-- `W_MAX`, the physical width of every slot (R9). -/
def State.wMax (s : State) : Nat := s.mMax + Config.padding

/-! ## The digit space and the key buffer -/

/-- The active digits of a slot, digit 0 first (10_state.md R23, R24). -/
def State.slotDigits (s : State) (slot : Nat) : List Byte := s.digits.readSlot slot s.wT

/-- `val(T[slot])`, or `val(SENS)` for slot 11 (10_state.md R23, R24). -/
def State.slotVal (s : State) (slot : Nat) : Nat := valDigits (s.slotDigits slot)

/-- Store low digits of a slot. -/
def State.setSlot (s : State) (slot : Nat) (ds : List Byte) : State :=
  { s with digits := s.digits.writeSlot slot ds }

/-- `val(SENS)` (10_state.md R24). -/
def State.sensVal (s : State) : Nat := s.slotVal Config.sensSlot

/-- `for k < W_T: SENS.d[k] <- digit(v, k)` (42_sensitivity.md R141). -/
def State.setSens (s : State) (v : Nat) : State := s.setSlot Config.sensSlot (toDigits s.wT v)

/-- `KEY[i]` (10_state.md R22). -/
def State.keyByte (s : State) (i : Nat) : Byte := s.key.read i

/-- The password's value `p`: the first byte pushed is the most significant digit (10_state.md R22, 20_memory.md R53). -/
def State.password (s : State) : Nat :=
  ((List.range s.m).map fun i => (s.keyByte i).toNat * 256 ^ (s.m - 1 - i)).sum

/-! ## The in-flight command -/

/-- STATUS.BUSY: a command is in flight (10_state.md R33, R37). -/
def State.busy (s : State) : Bool := s.inFlight.isSome

/-- The byte of DIN latched when the command was accepted (30_encoding.md R70); a command run without an acceptance would
latch DIN now (log 17). -/
def State.latchedDin (s : State) : Byte :=
  match s.inFlight with
  | some f => f.din
  | none => s.din

/-- How far the in-flight command is (10_state.md R33). -/
def State.phase (s : State) : Phase :=
  match s.inFlight with
  | some f => f.phase
  | none => .top

/-- Move the in-flight command on. -/
def State.setPhase (s : State) (p : Phase) : State :=
  { s with inFlight := s.inFlight.map fun f => { f with phase := p } }

/-- A command word is accepted: DONE cleared, LASTOP set, BUSY set, DIN latched (30_encoding.md R70). -/
def State.accept (s : State) (w : Word) : State :=
  { s with done := false, lastOp := opcField w, inFlight := some ⟨w, s.din, .top⟩ }

/-- The hidden buffers become `any`: fresh free values, each within its physical width (10_state.md R25; log 8). -/
def State.scrambleHidden (s : State) : State :=
  { s with
    acc := Config.hiddenAcc s.freeCtr % 256 ^ (2 * s.wMax - 1)
    scr := Config.hiddenScr s.freeCtr % 256 ^ (s.wMax + 1)
    freeCtr := s.freeCtr + 1 }

/-- The command completes without fault: BUSY cleared and DONE set in one step (30_encoding.md R70,
70_reset_and_hazards.md R277). -/
def State.complete (s : State) : State := { s.scrambleHidden with inFlight := none, done := true }

/-! ## Taking a fault, and leaving FAULT -/

/-- `raise Fault(code, info0, info1)` (60_exceptions.md R241): the one exception entry of the block. DONE stays as the
acceptance left it, LASTOP, MODE and every other register keep their values, nothing is saved for a return. -/
def State.raise (s : State) (f : FaultInfo) : State :=
  { s.scrambleHidden with
    err := f.code
    errInfo0 := f.info0
    errInfo1 := f.info1
    state := .fault
    inFlight := none }

/-- `reset()`, soft and hard alike (70_reset_and_hazards.md R270): every piece of state of the block at its value of
10_state.md R49, the in-flight command aborted (R271). There is no other return from a fault (60_exceptions.md R244).
The parameters, the byte source, the byte sink and the host are outside the block and keep what they hold (R271). -/
def State.resetBlock (s : State) : State :=
  { State.reset with
    mMax := s.mMax
    base := s.base
    initView := s.initView
    acc := Config.hiddenAcc s.freeCtr % 256 ^ (2 * s.wMax - 1)
    scr := Config.hiddenScr s.freeCtr % 256 ^ (s.wMax + 1)
    freeCtr := s.freeCtr + 1
    srcMore := s.srcMore
    srcNext := s.srcNext
    snkWrite := s.snkWrite
    snkFlush := s.snkFlush
    trace := s.trace
    events := s.events
    rdata := s.rdata }

/-! ## Port transactions: `none` while the collaborator has not answered (log 6) -/

/-- `SRC.has_more()` (R226). -/
def State.srcHasMore (s : State) : Option (Answer Bool × State) :=
  match s.srcMore with
  | [] => none
  | a :: rest => some (a, { s with srcMore := rest, trace := .hasMore a :: s.trace })

/-- `SRC.next()` (R227). -/
def State.srcTake (s : State) : Option (Answer Byte × State) :=
  match s.srcNext with
  | [] => none
  | a :: rest => some (a, { s with srcNext := rest, trace := .next a :: s.trace })

/-- `SNK.write(b)` (R228). -/
def State.snkPut (s : State) (b : Byte) : Option (Answer Unit × State) :=
  match s.snkWrite with
  | [] => none
  | a :: rest => some (a, { s with snkWrite := rest, trace := .write b a :: s.trace })

/-- `SNK.flush()` (R229). -/
def State.snkSync (s : State) : Option (Answer Unit × State) :=
  match s.snkFlush with
  | [] => none
  | a :: rest => some (a, { s with snkFlush := rest, trace := .flush a :: s.trace })

end Sys2Proof.Machine
end

