-- ==== Sys2Proof/Machine/Operands.lean ====
section
/-! DEFINITION. The checks made of a decoded command before it runs: legal states (30_encoding.md R76), operand ranges (R73,
R74), in the order of R70 and 60_exceptions.md R242. -/

namespace Sys2Proof.Machine

/-- STATUS.STATE as a number (10_state.md R37). -/
def EngineState.code : EngineState → BitVec 3
  | .idle => 0
  | .ready => 1
  | .fault => 7

/-- The states a command is legal in (R76). -/
def legalIn : Instr → EngineState → Bool
  | .nop, st | .drd _ _, st => st == .idle || st == .ready
  | .keyClear, st | .keyPush _, st | .openEnc, st | .openDec, st | .bigAdd _ _ _, st | .sensLoad _, st | .sensAdd _, st
  | .sensSqfold, st | .sensExtract _, st | .dwr _ _, st => st == .idle
  | .close, st | .xform, st | .run, st | .chainNext, st => st == .ready

/-- A slot operand that names a term slot, T[0] to T[10] (R73). -/
def termSlotOk (slot : Nat) : Bool := slot < Config.ring

/-- A slot operand of DRD and DWR, which may also name SENS (R73). -/
def anySlotOk (slot : Nat) : Bool := slot ≤ Config.sensSlot

/-- The operands are in range for the width `wT` (R73, R74). -/
def operandsInRange (wT : Nat) : Instr → Bool
  | .nop | .keyClear | .keyPush _ | .openEnc | .openDec | .close | .xform | .run | .chainNext | .sensSqfold => true
  | .bigAdd dst src len => termSlotOk dst && termSlotOk src && len ≤ wT
  | .sensLoad src => termSlotOk src
  | .sensAdd src => termSlotOk src
  | .sensExtract dst => termSlotOk dst
  | .drd slot k => anySlotOk slot && k < wT
  | .dwr slot k => anySlotOk slot && k < wT

/-- ILLEGAL_STATE: the command word and STATE at acceptance (60_exceptions.md R240). -/
def illegalStateFault (i : Instr) (s : State) : FaultInfo := ⟨.illegalState, encode i, s.state.code.setWidth 32⟩

/-- ILLEGAL_OPERAND: the command word and `W_T` at acceptance (60_exceptions.md R240). -/
def illegalOperandFault (i : Instr) (s : State) : FaultInfo := ⟨.illegalOperand, encode i, BitVec.ofNat 32 s.wT⟩

/-- ILLEGAL_CMD: the command word (60_exceptions.md R240). -/
def illegalCmdFault (w : Word) : FaultInfo := ⟨.illegalCmd, w, 0⟩

/-- One core step of command `i`: nothing in FAULT (60_exceptions.md R245; log 17), else the checks of R70 in their order,
else the command's own step. -/
def State.checked (s : State) (i : Instr) (own : State → State) : Host.Outcome State Fault Refusal :=
  match s.state with
  | .fault => .next s
  | _ =>
    if legalIn i s.state then
      if operandsInRange s.wT i then .next (own s) else .next (s.raise (illegalOperandFault i s))
    else .next (s.raise (illegalStateFault i s))

end Sys2Proof.Machine
end

