-- ==== Sys2Proof/Machine/Flags.lean ====
section
/-! DEFINITION. The block's flags: the STATUS word and its write-1-to-clear bits (10_state.md R37, R48), the result word of
BIGADD with its carry bit (40_big_add.md R104), and the interrupt output (60_exceptions.md R247). -/

namespace Sys2Proof.Machine

/-- MODE as a bit (10_state.md R32). -/
def Mode.bit : Mode → BitVec 1
  | .encrypt => 0
  | .decrypt => 1

/-- The STATUS word (10_state.md R37): bits [31:16] 0, LASTOP, 0, MODE, OVR, DONE, BUSY, STATE. -/
def State.statusWord (s : State) : Word :=
  0#16 ++ s.lastOp ++ 0#1 ++ s.mode.bit ++ BitVec.ofBool s.ovr ++ BitVec.ofBool s.done ++ BitVec.ofBool s.busy ++
    s.state.code

/-- A host write to STATUS: bit 4 clears DONE, bit 5 clears OVR, a 0 changes nothing (20_memory.md R59). -/
def State.clearStatus (s : State) (v : Word) : State :=
  { s with done := s.done && !v.getLsbD 4, ovr := s.ovr && !v.getLsbD 5 }

/-- RESULT of BIGADD: bit 0 the carry-out, bits [31:16] the significant length (40_big_add.md R104). -/
def bigAddResult (r : AddResult) : Word := BitVec.ofNat 32 (r.len * 65536 + r.carry)

/-- `IRQ`, a level (60_exceptions.md R247). -/
def State.irq (s : State) : Bool := (s.ieDone && s.done) || (s.ieFault && s.state == .fault)

end Sys2Proof.Machine
end

