-- ==== Sys2Proof/Machine/Bus.lean ====
section
/-! DEFINITION. The register window: the register map (10_state.md R34 to R47, 20_memory.md R60), host reads and writes (R56 to
R59, R61), and command acceptance (30_encoding.md R70). -/

namespace Sys2Proof.Machine

/-- The code ERR shows (60_exceptions.md R240). -/
def ErrCode.value : ErrCode → Byte
  | .none => 0x00
  | .invalidKey => 0x01
  | .allocationFailure => 0x02
  | .sensitivityOverflow => 0x03
  | .ioSource => 0x04
  | .ioSink => 0x05
  | .illegalCmd => 0x10
  | .illegalState => 0x11
  | .illegalOperand => 0x12
  | .poolOverflow => 0x14

/-- PARAM (10_state.md R35): bits [31:28] 0, RING, PADDING, M_MAX. -/
def State.paramWord (s : State) : Word :=
  0#4 ++ BitVec.ofNat 4 Config.ring ++ BitVec.ofNat 8 Config.padding ++ BitVec.ofNat 16 s.mMax

/-- CTRL (R36): SRST reads 0, IE_DONE, IE_FAULT, bits [31:3] 0. -/
def State.ctrlWord (s : State) : Word := 0#29 ++ BitVec.ofBool s.ieFault ++ BitVec.ofBool s.ieDone ++ 0#1

/-- VIEW_OFF, computed from the current KEY_LEN (R45); a free value where the difference is negative (log 9). -/
def State.viewOff (s : State) : BitVec 16 :=
  if s.wT < s.viewLen.toNat then Config.viewOffBelowZero s.keyLen s.viewLen
  else BitVec.ofNat 16 (s.wT - s.viewLen.toNat)

/-- The register at a word-aligned offset, as laid out by R34 to R47: CMD and the reserved offsets read 0. -/
def State.register (s : State) (off : Nat) : Word :=
  match off with
  | 0x00 => Config.idWord
  | 0x04 => s.paramWord
  | 0x08 => s.ctrlWord
  | 0x0C => s.statusWord
  | 0x14 => s.din.setWidth 32
  | 0x18 => s.dout.setWidth 32
  | 0x1C => s.result
  | 0x20 => s.err.value.setWidth 32
  | 0x24 => s.errInfo0
  | 0x28 => s.errInfo1
  | 0x2C => s.keyLen.setWidth 32
  | 0x30 => s.n.extractLsb' 0 32
  | 0x34 => s.n.extractLsb' 32 32
  | 0x38 => s.viewCur ++ s.viewLen
  | 0x3C => s.viewOff ++ 0#12 ++ BitVec.ofNat 4 s.e.val
  | 0x40 => s.j.setWidth 32
  | 0x44 => s.prev.setWidth 32
  | 0x48 => s.pool.extractLsb' 0 32
  | 0x4C => s.pool.extractLsb' 32 32
  | _ => 0

/-- The registers that read their defined values while BUSY = 1: ID, PARAM, CTRL, STATUS, DIN (20_memory.md R61). -/
def definedWhileBusy (off : Nat) : Bool := off == 0x00 || off == 0x04 || off == 0x08 || off == 0x0C || off == 0x14

/-- `MemRead(off, 4)`: the host receives the register's value, or any value where R61 says so (log 7); no register changes
(20_memory.md R58, R59). -/
def State.hostRead (s : State) (off : Nat) : State :=
  if s.busy && !definedWhileBusy off then
    { s with rdata := some (Config.busyRead s.freeCtr), freeCtr := s.freeCtr + 1 }
  else { s with rdata := some (s.register off) }

/-- A word delivered to CMD: ignored in FAULT (60_exceptions.md R245), dropped with OVR set while BUSY (R246), else accepted
(30_encoding.md R70). -/
def State.deliverCommand (s : State) (w : Word) : State :=
  match s.state with
  | .fault => s
  | _ => if s.busy then { s with ovr := true } else s.accept w

/-- A write to CTRL: SRST resets the block whatever the other bits, else the interrupt enables are set (10_state.md R36). -/
def State.writeCtrl (s : State) (v : Word) : State :=
  if v.getLsbD 0 then s.resetBlock else { s with ieDone := v.getLsbD 1, ieFault := v.getLsbD 2 }

/-- `MemWrite(off, 4, v)` (20_memory.md R59): read-only registers and reserved offsets ignore it (R58). -/
def State.hostWrite (s : State) (off : Nat) (v : Word) : State :=
  match off with
  | 0x08 => s.writeCtrl v
  | 0x0C => s.clearStatus v
  | 0x10 => s.deliverCommand v
  | 0x14 => { s with din := v.extractLsb' 0 8 }
  | _ => s

/-- The window offset of a host access, where R56 gives the access a step (log 16). -/
def windowOffset (base width addr : Nat) : Host.Outcome Nat Fault Refusal :=
  if addr < base ∨ base + Config.windowBytes ≤ addr then .fault (.outsideWindow addr)
  else if width ≠ 4 ∨ (addr - base) % 4 ≠ 0 then .refused (.accessForm width addr)
  else .next (addr - base)

/-- A host read (20_memory.md R56, R59). -/
def hostReadAccess (width addr : Nat) (s : State) : Host.Outcome State Fault Refusal :=
  match windowOffset s.base width addr with
  | .next off => .next (s.hostRead off)
  | .fault r => .fault r
  | .refused r => .refused r

/-- A host write (20_memory.md R56, R59). -/
def hostWriteAccess (width addr : Nat) (v : Word) (s : State) : Host.Outcome State Fault Refusal :=
  match windowOffset s.base width addr with
  | .next off => .next (s.hostWrite off v)
  | .fault r => .fault r
  | .refused r => .refused r

end Sys2Proof.Machine
end

