-- ==== Sys2Proof/Machine/BigAdd.lean ====
section
/-! DEFINITION. Unit 1's command, BIGADD (40_big_add.md R104). -/

namespace Sys2Proof.Machine

/-- The addition BIGADD makes: the destination slot plus the low `len` digits of the source slot, both read before anything
is written (R104). -/
def State.bigAddOf (s : State) (dst src len : Nat) : AddResult :=
  addTrunc (s.slotDigits dst) (s.digits.readSlot src len)

/-- BIGADD's own step (R104). -/
def bigAddStep (dst src len : Nat) (s : State) : State :=
  { s.setSlot dst (s.bigAddOf dst src len).out with result := bigAddResult (s.bigAddOf dst src len) }.complete

/-- BIGADD: truncating addition of the low `len` digits of one term slot into another (R104). -/
def execBigAdd (dst src len : Nat) (s : State) : Host.Outcome State Fault Refusal :=
  s.checked (.bigAdd dst src len) (bigAddStep dst src len)

end Sys2Proof.Machine
end

