-- ==== Sys2Proof/Machine/HostDiag.lean ====
section
/-! DEFINITION. Housekeeping and diagnostic commands: NOP, DRD, DWR (45_host_and_diag.md R220, R222, R223). -/

namespace Sys2Proof.Machine

/-- NOP: complete with no effect (R220). -/
def execNop (s : State) : Host.Outcome State Fault Refusal := s.checked .nop State.complete

/-- DRD's own step: `RESULT <- zext_32` of the digit (R222). -/
def drdStep (slot k : Nat) (s : State) : State :=
  { s with result := (s.digits.read (digitAddr slot k)).setWidth 32 }.complete

/-- DRD: read one digit of a term slot or of SENS (R222). -/
def execDrd (slot k : Nat) (s : State) : Host.Outcome State Fault Refusal := s.checked (.drd slot k) (drdStep slot k)

/-- DWR's own step: the digit gets the latched byte of DIN; RESULT is unchanged (R223). -/
def dwrStep (slot k : Nat) (s : State) : State :=
  { s with digits := s.digits.write (digitAddr slot k) s.latchedDin }.complete

/-- DWR: write one digit of a term slot or of SENS (R223). -/
def execDwr (slot k : Nat) (s : State) : Host.Outcome State Fault Refusal := s.checked (.dwr slot k) (dwrStep slot k)

end Sys2Proof.Machine
end

