-- ==== Sys2Proof/Machine/Squareover.lean ====
section
/-! DEFINITION. Unit 2, squaring with a fold at the significant length (41_squareover.md), and its command SENS_SQFOLD. -/

namespace Sys2Proof.Machine

/-- `sqfold(x)` (R121; the fold point is 90_conflicts.md C1). -/
def sqfold (x : Nat) : Nat :=
  let bound := 256 ^ siglen x
  x * x % bound + x * x / bound % bound

/-- The accumulator after `rounds` rounds of the schoolbook procedure, least significant digit first: round `i` adds
`SCR = x * digit(x, i)` at digit offset `i` (R122). -/
def schoolbookAcc (x : Nat) : Nat → Nat
  | 0 => 0
  | i + 1 => schoolbookAcc x i + x * (digit x i).toNat * 256 ^ i

/-- The schoolbook procedure's result for the operand width `width` and fold point `siglen x`: the low half plus the high
half of the accumulator by `add_trunc` of the given width (R122). -/
def schoolbookFold (width x : Nat) : AddResult :=
  let fold := siglen x
  let acc := toDigits (2 * fold) (schoolbookAcc x fold)
  addTrunc (acc.take fold ++ List.replicate (width - fold) 0) (acc.drop fold)

/-- SENSITIVITY_OVERFLOW: the offending length and the working width (60_exceptions.md R240). -/
def sensOverflow (s : State) (v : Nat) : FaultInfo :=
  ⟨.sensitivityOverflow, BitVec.ofNat 32 (siglen v), BitVec.ofNat 32 s.wS⟩

/-- SENS_SQFOLD's own step (R124). -/
def sensSqfoldStep (s : State) : State :=
  if s.wS < siglen s.sensVal then s.raise (sensOverflow s s.sensVal)
  else { s.setSens (sqfold s.sensVal) with result := BitVec.ofNat 32 (siglen (sqfold s.sensVal)) }.complete

/-- SENS_SQFOLD: one square-and-fold of the Sensitivity value (R124). -/
def execSensSqfold (s : State) : Host.Outcome State Fault Refusal := s.checked .sensSqfold sensSqfoldStep

end Sys2Proof.Machine
end

