-- ==== Sys2Proof/Machine/Sensitivity.lean ====
section
/-! DEFINITION. Unit 3, the Sensitivity value: load, add, extract (42_sensitivity.md R141 to R143), their commands (R144 to
R146) and the seeding of the chain (R147). -/

namespace Sys2Proof.Machine

/-- `sens_load(v)`; on the fault SENS is unchanged (R141). -/
def State.loadSens (s : State) (v : Nat) : Except FaultInfo State :=
  if s.wS < siglen v then .error (sensOverflow s v) else .ok (s.setSens v)

/-- `sens_add(v)` for the slot whose value is `v`: the fault is decided on the exact sum and leaves SENS unchanged; else
SENS gets the truncating sum (R142). -/
def State.addSens (s : State) (slot : Nat) : Except FaultInfo State :=
  if 256 ^ s.wS ≤ s.sensVal + s.slotVal slot then .error (sensOverflow s (s.sensVal + s.slotVal slot))
  else .ok (s.setSlot Config.sensSlot (addTrunc (s.slotDigits Config.sensSlot) (s.slotDigits slot)).out)

/-- `sens_extract(slot)`: the slot gets the digits of SENS, leading zeros included (R143). -/
def State.extractSens (s : State) (slot : Nat) : State := s.setSlot slot (s.slotDigits Config.sensSlot)

/-- The padding count of `sens_extract` (R143). -/
def State.sensPadding (s : State) : Nat := s.wT - siglen s.sensVal

/-- RESULT gets the significant length of SENS, and the command completes (R144, R145). -/
def State.completeWithSensLen (s : State) : State :=
  { s with result := BitVec.ofNat 32 (siglen s.sensVal) }.complete

/-- SENS_LOAD's own step (R144). -/
def sensLoadStep (src : Nat) (s : State) : State :=
  match s.loadSens (s.slotVal src) with
  | .error f => s.raise f
  | .ok t => t.completeWithSensLen

/-- SENS_LOAD: load a term slot into the Sensitivity value (R144). -/
def execSensLoad (src : Nat) (s : State) : Host.Outcome State Fault Refusal := s.checked (.sensLoad src) (sensLoadStep src)

/-- SENS_ADD's own step (R145). -/
def sensAddStep (src : Nat) (s : State) : State :=
  match s.addSens src with
  | .error f => s.raise f
  | .ok t => t.completeWithSensLen

/-- SENS_ADD: add a term slot into the Sensitivity value (R145). -/
def execSensAdd (src : Nat) (s : State) : Host.Outcome State Fault Refusal := s.checked (.sensAdd src) (sensAddStep src)

/-- SENS_EXTRACT's own step (R146). -/
def sensExtractStep (dst : Nat) (s : State) : State :=
  { s.extractSens dst with result := BitVec.ofNat 32 s.sensPadding }.complete

/-- SENS_EXTRACT: copy the Sensitivity value into a term slot (R146). -/
def execSensExtract (dst : Nat) (s : State) : Host.Outcome State Fault Refusal :=
  s.checked (.sensExtract dst) (sensExtractStep dst)

/-! ## Seeding -/

/-- What a part of a command leaves: the state so far, and the fault it met, if any. -/
abbrev Progressed := State × Option FaultInfo

/-- One round of step 4: `sens_add(val(T[i-2]))`, square-and-fold, `sens_extract(i)` (R147). -/
def State.seedRound (s : State) (i : Nat) : Except FaultInfo State :=
  match s.addSens (i - 2) with
  | .error f => .error f
  | .ok t => .ok ((t.setSens (sqfold t.sensVal)).extractSens i)

/-- Rounds `i, i+1, ...` of step 4, stopping at the first fault (R147). -/
def seedRounds : Nat → Nat → State → Progressed
  | 0, _, s => (s, none)
  | rounds + 1, i, s =>
    match s.seedRound i with
    | .error f => (s, some f)
    | .ok t => seedRounds rounds (i + 1) t

/-- `seed()`: T[0] the password, T[1] its square-and-fold, T[2] to T[9] by step 4 (R147). -/
def State.seed (s : State) : Progressed :=
  let s0 := s.setSlot 0 (toDigits s.wT s.password)
  match s0.loadSens s.password with
  | .error f => (s0, some f)
  | .ok t => seedRounds 8 2 ((t.setSens (sqfold t.sensVal)).extractSens 1)

end Sys2Proof.Machine
end

