-- ==== Sys2Proof/Machine/Keygen.lean ====
section
/-! DEFINITION. Unit 4: key loading (43_keygen_fsm.md R160 to R162), the construction of the chain (R163, R164), the recurrence
with its skip rule (R165 to R167) and CHAIN_NEXT (R170). -/

namespace Sys2Proof.Machine

/-- KEY_CLEAR's own step: every key byte 0, KEY_LEN 0 (R160). -/
def keyClearStep (s : State) : State := { s with key := [], keyLen := 0 }.complete

/-- KEY_CLEAR: empty the key buffer (R160). -/
def execKeyClear (s : State) : Host.Outcome State Fault Refusal := s.checked .keyClear keyClearStep

/-- ALLOCATION_FAILURE: the attempted key length and term width (R161). -/
def allocationFault (s : State) : FaultInfo :=
  ⟨.allocationFailure, BitVec.ofNat 32 (s.mMax + 1), BitVec.ofNat 32 (s.mMax + 1 + Config.padding)⟩

/-- KEY_PUSH's own step (R161). -/
def keyPushStep (b : Byte) (s : State) : State :=
  if s.m = s.mMax then s.raise (allocationFault s)
  else { s with key := s.key.write s.m b, keyLen := s.keyLen + 1 }.complete

/-- KEY_PUSH: append one byte to the key (R161). -/
def execKeyPush (b : Byte) (s : State) : Host.Outcome State Fault Refusal := s.checked (.keyPush b) (keyPushStep b)

/-! ## The chain -/

/-- `usable_len(v)`: the significant length of the `m` low digits (R164). -/
def State.usableLen (s : State) (v : Nat) : Nat := siglen (v % 256 ^ s.m)

/-- `VIEW_CUR` of the term-9 view (R163, 90_conflicts.md C2; log 3). -/
def initialCursor (init : Config.InitView) (len : BitVec 16) : BitVec 16 :=
  match init with
  | .exhausted => len
  | .fresh => 0

/-- Every digit of every slot 0, T[0] to T[10] and SENS, active or not (R163, 45_host_and_diag.md R223, 92_eei_decisions.md
D30; log 12). -/
def State.zeroSlots (s : State) : State := { s with digits := [] }

/-- The last part of `chain_init()`: N, E and the term-9 view (R163). -/
def State.startView (s : State) : State :=
  { s with
    n := 9
    e := 9
    viewLen := BitVec.ofNat 16 (s.usableLen (s.slotVal 9))
    viewCur := initialCursor s.initView (BitVec.ofNat 16 (s.usableLen (s.slotVal 9))) }

/-- `chain_init()` (R163). -/
def State.chainInit (s : State) : Progressed :=
  match s.zeroSlots.seed with
  | (t, some f) => (t, some f)
  | (t, none) => (t.startView, none)

/-- The slot `d` places on round the ring. -/
def ringSlot (e : Fin 11) (d : Nat) : Nat := (e.val + d) % Config.ring

/-- One round of `next()`'s loop, less its test: the new term is the sum of the terms 10 and 7 back, truncated, in the slot
after the newest (R165). -/
def State.advanceTerm (s : State) : State :=
  let e' := s.e + 1
  { s.setSlot e'.val (addTrunc (s.slotDigits (ringSlot e' 1)) (s.slotDigits (ringSlot e' 4))).out with
    n := s.n + 1
    e := e' }

/-- The usable length of the newest term (R164). -/
def State.newestUsable (s : State) : Nat := s.usableLen (s.slotVal s.e.val)

/-- A fresh view of the newest term, and `J <- 0` (R165, R170, 44_xform_engine.md R193). -/
def State.installView (s : State) : State :=
  { s with viewLen := BitVec.ofNat 16 s.newestUsable, viewCur := 0, j := 0 }

/-- One core step of `next(); J <- 0`: one round of the loop, ending it when the new term has a usable suffix, else leaving
the loop to go on (R165; log 10). -/
def State.fetchRound (s : State) : State :=
  if s.advanceTerm.newestUsable = 0 then s.advanceTerm else s.advanceTerm.installView

/-- The view is exhausted (10_state.md R28). -/
def State.viewExhausted (s : State) : Bool := decide (s.viewLen ≤ s.viewCur)

/-- `viewbyte(i)` (R167). -/
def State.viewByte (s : State) (i : Nat) : Byte := s.digits.read (digitAddr s.e.val (s.viewLen.toNat - 1 - i))

/-- CHAIN_NEXT's own step: one round of `next()`; the command completes with the round that yields a term (R170). -/
def chainNextStep (s : State) : State :=
  if s.advanceTerm.newestUsable = 0 then s.fetchRound
  else { s.fetchRound with result := s.fetchRound.viewLen.setWidth 32 }.complete

/-- CHAIN_NEXT: advance the chain to its next yielded term (R170). -/
def execChainNext (s : State) : Host.Outcome State Fault Refusal := s.checked .chainNext chainNextStep

end Sys2Proof.Machine
end

