-- ==== Sys2Proof/Machine/Xform.lean ====
section
/-! DEFINITION. Unit 5: opening the engine (44_xform_engine.md R190 to R192), the per-byte step (R193, R196, R199, R200), XFORM
(R194), RUN (R195, 60_exceptions.md R255) and CLOSE (R197). -/

namespace Sys2Proof.Machine

/-- The registers `open(mode)` sets once the chain is built (R190). -/
def State.startEngine (s : State) (mode : Mode) : State :=
  { s with j := 0, pool := 0, prev := 0, mode := mode, dout := 0, state := .ready }

/-- `open(mode)` (R190). -/
def openStep (mode : Mode) (s : State) : State :=
  if s.m = 0 then s.raise ⟨.invalidKey, 0, 0⟩
  else
    match s.chainInit with
    | (t, some f) => t.raise f
    | (t, none) => (t.startEngine mode).complete

/-- OPEN_ENC: open the engine for encryption (R191). -/
def execOpenEnc (s : State) : Host.Outcome State Fault Refusal := s.checked .openEnc (openStep .encrypt)

/-- OPEN_DEC: open the engine for decryption (R192). -/
def execOpenDec (s : State) : Host.Outcome State Fault Refusal := s.checked .openDec (openStep .decrypt)

/-! ## The per-byte step -/

/-- Step 2: the new running index (R193). -/
def State.stepIndex (s : State) : Nat := (s.j.toNat + s.prev.toNat) % s.viewLen.toNat

/-- Step 3: the consumed key byte (R193). -/
def State.consumedByte (s : State) : Byte := s.viewByte s.viewCur.toNat

/-- Step 5: the key byte `u`, drawn from the pool where the consumed byte is 0 (R193, R200). -/
def State.stepU (s : State) : Nat :=
  if s.consumedByte = 0 then s.pool.toNat % 256 else s.consumedByte.toNat

/-- Step 5: the pool, one digit drained where the consumed byte is 0 (R193, R200). -/
def State.drainedPool (s : State) : Nat :=
  if s.consumedByte = 0 then s.pool.toNat / 256 else s.pool.toNat

/-- `k = (u + v) div 2`, with `v` the indexed byte of step 4 (R193). -/
def State.stepKey (s : State) : Nat := (s.stepU + (s.viewByte s.stepIndex).toNat) / 2

/-- What step 6 makes of an input byte: the output byte, the pool increment, the plaintext byte (R193). -/
structure Transformed where
  out   : Nat
  quot  : Nat
  plain : Nat
deriving DecidableEq, Repr

/-- Step 6, encryption (R193). -/
def encryptByte (xin k : Nat) : Transformed := ⟨(xin + k) % 256, (xin + k) / 256, xin⟩

/-- Step 6, decryption, on signed integers with floor division (R193, 00_scope.md R10). -/
def decryptByte (xin k : Nat) : Transformed :=
  let raw : Int := (xin : Int) - k
  let q : Int := (255 - raw) / 256
  let t : Int := 256 * q + raw
  ⟨t.toNat, q.toNat, t.toNat⟩

/-- Step 6, by mode (R193). -/
def transformByte : Mode → Nat → Nat → Transformed
  | .encrypt => encryptByte
  | .decrypt => decryptByte

/-- Steps 2 to 6 of `step(xin)` on a view that is not exhausted: POOL_OVERFLOW before anything is written, else J, VIEW_CUR,
POOL and PREV commit together (R193, R196). -/
def State.byteStep (s : State) (xin : Byte) : Except FaultInfo (State × Byte) :=
  let r := transformByte s.mode xin.toNat s.stepKey
  if 2 ^ Config.poolBits - 1 < s.drainedPool + r.quot then .error ⟨.poolOverflow, 0, 0⟩
  else
    .ok
      ( { s with
          j := BitVec.ofNat 16 s.stepIndex
          viewCur := s.viewCur + 1
          pool := BitVec.ofNat Config.poolBits (s.drainedPool + r.quot)
          prev := BitVec.ofNat 8 r.plain },
        BitVec.ofNat 8 r.out )

/-- XFORM's own step: a round of `next()` while the view is exhausted, then the byte step of the latched DIN (R194). -/
def xformStep (s : State) : State :=
  if s.viewExhausted then s.fetchRound
  else
    match s.byteStep s.latchedDin with
    | .error f => s.raise f
    | .ok (t, out) => { t with dout := out }.complete

/-- XFORM: transform one byte through the register interface (R194). -/
def execXform (s : State) : Host.Outcome State Fault Refusal := s.checked .xform xformStep

/-! ## RUN: one core step is one port transaction, one round of `next()` or one byte step (45_host_and_diag.md R225) -/

/-- The fault of a port's `Err(e)`: the collaborator's code and the transaction (60_exceptions.md R240). -/
def portFault (code : ErrCode) (e : Word) (transaction : Nat) : FaultInfo := ⟨code, e, BitVec.ofNat 32 transaction⟩

/-- The top of RUN's loop: `SRC.has_more()` (R195). -/
def runAskMore (s : State) : State :=
  match s.srcHasMore with
  | none => s
  | some (.err e, t) => t.setPhase (.faultFlush (portFault .ioSource e 0))
  | some (.ok false, t) => t.setPhase .finalFlush
  | some (.ok true, t) => t.setPhase .needByte

/-- `SRC.next()` (R195). -/
def runTakeByte (s : State) : State :=
  match s.srcTake with
  | none => s
  | some (.err e, t) => t.setPhase (.faultFlush (portFault .ioSource e 1))
  | some (.ok b, t) => t.setPhase (.haveByte b)

/-- `out <- step(r)`; `DOUT <- out` (R195). -/
def runByteStep (b : Byte) (s : State) : State :=
  if s.viewExhausted then s.fetchRound
  else
    match s.byteStep b with
    | .error f => s.setPhase (.faultFlush f)
    | .ok (t, out) => { t with dout := out }.setPhase (.putByte out)

/-- `SNK.write(out)`, then the top of the loop again (R195). -/
def runPutByte (out : Byte) (s : State) : State :=
  match s.snkPut out with
  | none => s
  | some (.err e, t) => t.setPhase (.faultFlush (portFault .ioSink e 2))
  | some (.ok _, t) => t.setPhase .top

/-- The flush after the loop (R195), and CLOSE's (R197): its failure is raised directly. -/
def flushOrFault (onOk : State → State) (s : State) : State :=
  match s.snkSync with
  | none => s
  | some (.err e, t) => t.raise (portFault .ioSink e 3)
  | some (.ok _, t) => onOk t

/-- `fault_with_flush`: one flush whose answer is ignored, then the fault (60_exceptions.md R255). -/
def runFaultFlush (f : FaultInfo) (s : State) : State :=
  match s.snkSync with
  | none => s
  | some (_, t) => t.raise f

/-- RUN's own step (R195). -/
def runStep (s : State) : State :=
  match s.phase with
  | .top => runAskMore s
  | .needByte => runTakeByte s
  | .haveByte b => runByteStep b s
  | .putByte out => runPutByte out s
  | .finalFlush => flushOrFault State.complete s
  | .faultFlush f => runFaultFlush f s

/-- RUN: transform the byte source into the byte sink until the source ends (R195). -/
def execRun (s : State) : Host.Outcome State Fault Refusal := s.checked .run runStep

/-- CLOSE's own step: one flush, then IDLE (R197). -/
def closeStep (s : State) : State := flushOrFault (fun t => { t with state := .idle }.complete) s

/-- CLOSE: end the engine and the sink's scope (R197). -/
def execClose (s : State) : Host.Outcome State Fault Refusal := s.checked .close closeStep

end Sys2Proof.Machine
end

