-- ==== Sys2Proof/Machine/Dispatch.lean ====
section
/-! DEFINITION. One core step of a command, one arm per constructor of Instr. -/

namespace Sys2Proof.Machine

def exec (i : Instr) (s : State) : Host.Outcome State Fault Refusal :=
  match i with
  | .nop => Sys2Proof.Machine.execNop s
  | .keyClear => Sys2Proof.Machine.execKeyClear s
  | .keyPush b => Sys2Proof.Machine.execKeyPush b s
  | .openEnc => Sys2Proof.Machine.execOpenEnc s
  | .openDec => Sys2Proof.Machine.execOpenDec s
  | .close => Sys2Proof.Machine.execClose s
  | .xform => Sys2Proof.Machine.execXform s
  | .run => Sys2Proof.Machine.execRun s
  | .chainNext => Sys2Proof.Machine.execChainNext s
  | .bigAdd dst src len => Sys2Proof.Machine.execBigAdd dst src len s
  | .sensLoad src => Sys2Proof.Machine.execSensLoad src s
  | .sensAdd src => Sys2Proof.Machine.execSensAdd src s
  | .sensSqfold => Sys2Proof.Machine.execSensSqfold s
  | .sensExtract dst => Sys2Proof.Machine.execSensExtract dst s
  | .drd slot k => Sys2Proof.Machine.execDrd slot k s
  | .dwr slot k => Sys2Proof.Machine.execDwr slot k s

end Sys2Proof.Machine
end

