-- ==== Sys2Proof/Machine/Sequencer.lean ====
section
/-! DEFINITION. What the agents' moves do (45_host_and_diag.md R225): the core's step of the in-flight command, the host's
accesses and its waiting, the platform's hard reset. -/

namespace Sys2Proof.Machine

/-- The core's step: it does nothing in FAULT (60_exceptions.md R245) or with no command in flight; else it decodes the word in
flight and takes one step of the command, or raises ILLEGAL_CMD (30_encoding.md R70, R77). -/
def coreStep (s : State) : Host.Outcome State Fault Refusal :=
  match s.inFlight with
  | none => .next s
  | some f =>
    match decode f.word with
    | .ok i => exec i s
    | .error _ => if s.state = .fault then .next s else .next (s.raise (illegalCmdFault f.word))

/-- The host polls STATUS: it goes on when BUSY = 0; until then the core moves and the poll stays (30_encoding.md R80;
log 21). -/
def hostPoll (s : State) : Host.Outcome State Fault Refusal :=
  if s.busy then coreStep { s with events := .hostWait :: s.events }
  else .next { s with rdata := some s.statusWord }

/-- One move, taken off the list of moves. -/
def takeMove (ev : Event) (s : State) : Host.Outcome State Fault Refusal :=
  match ev with
  | .core => coreStep s
  | .host (.read width addr) => hostReadAccess width addr s
  | .host (.write width addr v) => hostWriteAccess width addr v s
  | .hostWait => hostPoll s
  | .hardReset => .next s.resetBlock

/-- The next move is the core's, on the command word `w` just accepted (30_encoding.md R70; log 5). -/
def State.placeCommand (s : State) (w : Word) : State := { s.accept w with events := .core :: s.events }

end Sys2Proof.Machine
end

