-- ==== Sys2Proof/Machine/Step.lean ====
section
/-! DEFINITION. One step of the machine: the next move of the list of moves; with none listed, the core's (log 4). -/

namespace Sys2Proof.Machine

/-- One atomic step of one agent (00_scope.md R6, 45_host_and_diag.md R225). -/
def step (s : State) : Host.Outcome State Fault Refusal :=
  match s.events with
  | [] => coreStep s
  | ev :: rest => takeMove ev { s with events := rest }

/-- The state in which the very next step runs the command whose bits are `w`: the word has just been accepted and the core
moves next. The block fetches nothing; this stands for the host's CMD write (log 5). -/
def State.withFetchWord (s : State) (nbits w : Nat) : State := s.placeCommand (BitVec.ofNat 32 (w % 2 ^ nbits))

end Sys2Proof.Machine
end

