-- ==== Sys2Proof/Safety.lean ====
section
/-! DEFINITION. The terms the statements use: the invariant of the machine, the order of port transactions, runs of core steps,
the life of the ring, and a stream through XFORM. -/

namespace Sys2Proof.Machine

/-! ## The invariant -/

/-- The build's parameters and the key length are in range (00_scope.md R8, R9). -/
def State.ParamsOk (s : State) : Prop := 1 ≤ s.mMax ∧ s.mMax ≤ Config.mMaxLimit ∧ s.m ≤ s.mMax

/-- The storage is canonical; key bytes past the key are 0; only digits of slots 0 to 11 below `W_MAX` are not 0 (10_state.md
R22 to R24). -/
def State.StorageOk (s : State) : Prop :=
  s.key.wf = true ∧ s.digits.wf = true ∧ (∀ i, s.m ≤ i → s.keyByte i = 0) ∧
    ∀ a, s.digits.read a ≠ 0 → ∃ slot k, slot ≤ Config.sensSlot ∧ k < s.wMax ∧ a = digitAddr slot k

/-- The hidden buffers are within their physical widths (10_state.md R25). -/
def State.HiddenOk (s : State) : Prop := s.acc < 256 ^ (2 * s.wMax - 1) ∧ s.scr < 256 ^ (s.wMax + 1)

/-- While an engine is open: a key, a view within it, a cursor within the view, J within the view (10_state.md R28, R29,
00_scope.md R8). -/
def State.EngineOk (s : State) : Prop :=
  s.state = .ready →
    1 ≤ s.m ∧ s.viewLen.toNat ≤ s.m ∧ s.viewCur.toNat ≤ s.viewLen.toNat ∧ s.j.toNat < max s.viewLen.toNat 1

/-- ERR holds a code exactly in FAULT, where nothing is in flight and DONE is 0 (60_exceptions.md R240, R241, R244). -/
def State.ErrorOk (s : State) : Prop :=
  (s.state = .fault → s.err ≠ .none ∧ s.inFlight = none ∧ s.done = false) ∧
    (s.state ≠ .fault → s.err = .none ∧ s.errInfo0 = 0 ∧ s.errInfo1 = 0)

/-- While a command is in flight: DONE is 0, LASTOP is its opcode field, only a RUN in READY is past its top, and a fault
that waits for its flush has a code (10_state.md R37, 30_encoding.md R70, 60_exceptions.md R255). -/
def State.FlightOk (s : State) : Prop :=
  ∀ f, s.inFlight = some f →
    s.done = false ∧ s.lastOp = opcField f.word ∧
      (f.phase ≠ .top → decode f.word = .ok .run ∧ s.state = .ready) ∧
      ∀ g, f.phase = .faultFlush g → g.code ≠ .none

/-- The invariant of the machine. -/
def State.Inv (s : State) : Prop :=
  s.ParamsOk ∧ s.StorageOk ∧ s.HiddenOk ∧ s.EngineOk ∧ s.ErrorOk ∧ s.FlightOk

/-! ## What a command leaves -/

/-- `s` with its command completed: BUSY 0, DONE 1 (30_encoding.md R70). The hidden buffers and the counter behind them, which
become `any`, are those of `t` (10_state.md R25); every other field is that of `s`. -/
def State.completedLike (s t : State) : State :=
  { s with inFlight := none, done := true, acc := t.acc, scr := t.scr, freeCtr := t.freeCtr }

/-- `s` with fault `f` raised: STATE 7, BUSY 0, ERR and its two words (60_exceptions.md R241). The hidden buffers and the
counter behind them are those of `t`; every other field is that of `s`. -/
def State.faultedLike (s t : State) (f : FaultInfo) : State :=
  { s with
    state := .fault, inFlight := none, err := f.code, errInfo0 := f.info0, errInfo1 := f.info1
    acc := t.acc, scr := t.scr, freeCtr := t.freeCtr }

/-- Address `a` holds an active digit of the slot (10_state.md R23). -/
def State.IsActiveDigit (s : State) (slot a : Nat) : Prop := ∃ k < s.wT, a = digitAddr slot k

/-- Every piece of the block's state has its reset value (10_state.md R49); ACC and SCR are `any`. -/
def State.AtResetValues (s : State) : Prop :=
  (∀ i, s.keyByte i = 0) ∧ s.keyLen = 0 ∧ (∀ a, s.digits.read a = 0) ∧ s.n = 0 ∧ s.e = 0 ∧ s.viewLen = 0 ∧ s.viewCur = 0 ∧
    s.j = 0 ∧ s.prev = 0 ∧ s.pool = 0 ∧ s.mode = .encrypt ∧ s.state = .idle ∧ s.busy = false ∧ s.done = false ∧
    s.ovr = false ∧ s.lastOp = 0 ∧ s.ieDone = false ∧ s.ieFault = false ∧ s.din = 0 ∧ s.dout = 0 ∧ s.result = 0 ∧
    s.err = .none ∧ s.errInfo0 = 0 ∧ s.errInfo1 = 0 ∧ s.inFlight = none ∧ s.irq = false

/-- `t` is `s` after one round of `next()` for a byte step (43_keygen_fsm.md R165, 44_xform_engine.md R193): the new term is the
truncated sum of the terms 10 and 7 back, in the slot after the newest; N and E advance; a term with a usable suffix installs
its view and sets J to 0, one without leaves the view and J; no other digit and no other field differs. -/
def State.TermFetched (s t : State) : Prop :=
  let new := (s.e.val + 1) % 11
  let term := (s.slotVal ((s.e.val + 2) % 11) + s.slotVal ((s.e.val + 5) % 11)) % 256 ^ s.wT
  let len := siglen (term % 256 ^ s.m)
  t.slotVal new = term ∧ t.n = s.n + 1 ∧ t.e.val = new ∧
    (∀ a, ¬ s.IsActiveDigit new a → t.digits.read a = s.digits.read a) ∧
    t =
      { s with
        digits := t.digits, n := t.n, e := t.e
        viewLen := if len = 0 then s.viewLen else BitVec.ofNat 16 len
        viewCur := if len = 0 then s.viewCur else 0
        j := if len = 0 then s.j else 0 }

/-! ## Port order -/

/-- Newest first: every `SRC.next()` stands right after a `SRC.has_more()` that answered true, every `SNK.write` right after a
`SRC.next()` that answered a byte (20_memory.md R55, R66, 45_host_and_diag.md R227, R228). -/
def PortsOrdered : List PortEvent → Prop
  | [] => True
  | .next _ :: rest => rest.head? = some (.hasMore (.ok true)) ∧ PortsOrdered rest
  | .write _ _ :: rest => (∃ b, rest.head? = some (.next (.ok b))) ∧ PortsOrdered rest
  | .hasMore _ :: rest => PortsOrdered rest
  | .flush _ :: rest => PortsOrdered rest

/-- The trace is in order, and the phase of the command in flight fits the newest transaction. -/
def State.PortInv (s : State) : Prop :=
  PortsOrdered s.trace ∧
    (s.phase = .needByte → s.trace.head? = some (.hasMore (.ok true))) ∧
    (∀ b, s.phase = .haveByte b → s.trace.head? = some (.next (.ok b))) ∧
    ∀ out, s.phase = .putByte out → ∃ b, s.trace.head? = some (.next (.ok b))

/-! ## Runs -/

/-- The host makes only accesses that R56 gives a step. -/
def State.HostKeepsForm (s : State) : Prop :=
  ∀ ev ∈ s.events,
    match ev with
    | .host (.read width addr) => ∃ off, windowOffset s.base width addr = .next off
    | .host (.write width addr _) => ∃ off, windowOffset s.base width addr = .next off
    | _ => True

/-- At most `k` core steps, stopping when no command is in flight. -/
def coreSteps : Nat → State → State
  | 0, s => s
  | k + 1, s =>
    if s.busy then
      match coreStep s with
      | .next t => coreSteps k t
      | .fault _ => s
      | .refused _ => s
    else s

/-- A soft or hard reset is the next move (45_host_and_diag.md R224). -/
def State.ResetIsNext (s : State) : Prop :=
  s.events.head? = some .hardReset ∨
    ∃ v : Word, s.events.head? = some (.host (.write 4 (s.base + 0x08) v)) ∧ v.getLsbD 0 = true

/-- One byte through the register interface: DIN, then CMD XFORM, then the core until the command ends, in at most 11 steps
(ten rounds of `next()` and one byte step, 43_keygen_fsm.md R168, 44_xform_engine.md R194). -/
def xformByte (s : State) (b : Byte) : State :=
  coreSteps 11 ((s.hostWrite 0x14 (b.setWidth 32)).hostWrite 0x10 (encode .xform))

/-- A stream of bytes through XFORM: the state at the end and the bytes read from DOUT. -/
def xformStream : List Byte → State → State × List Byte
  | [], s => (s, [])
  | b :: bs, s => ((xformStream bs (xformByte s b)).1, (xformByte s b).dout :: (xformStream bs (xformByte s b)).2)

/-! ## The chain -/

/-- The seed terms of a password value: `t0 = p`, `t1 = sqfold(p)`, `t_i = sqfold(t_{i-1} + t_{i-2})` (42_sensitivity.md R147). -/
def seedTerm (p : Nat) : Nat → Nat
  | 0 => p
  | 1 => sqfold p
  | i + 2 => sqfold (seedTerm p (i + 1) + seedTerm p i)

/-- The slot of the term `back` places before the newest. -/
def State.slotBack (s : State) (back : Nat) : Nat := (s.e.val + 11 - back) % 11

/-- One of the ten newest terms has a usable suffix. -/
def State.RingAlive (s : State) : Prop := ∃ back < 10, s.usableLen (s.slotVal (s.slotBack back)) ≠ 0

/-- No term of the ring has a usable suffix. -/
def State.RingDead (s : State) : Prop := ∀ slot < 11, s.usableLen (s.slotVal slot) = 0

end Sys2Proof.Machine
end

