-- ==== Sys2Proof/Certificates/Slice0/Obligations.lean ====
section
/-! DEFINITION. The statements about the model. A frame is written as one equation: `t` is `s` with the fields named, so that
every field not named is unchanged; `t.digits` on the right says that the digit space is described by the other clauses. -/

open Sys2Proof Sys2Proof.Machine

/-! ## Encoding -/

/-- One word of every command, written out from the spec's encoding (30_encoding.md R75, R81 and 95_test_vectors.md). -/
def Obligations.SpecExampleWordsDecode : Prop :=
  decode 0x00000000 = .ok .nop ∧ decode 0x01000000 = .ok .keyClear ∧ decode 0x02000041 = .ok (.keyPush 0x41) ∧
    decode 0x08000000 = .ok .openEnc ∧ decode 0x09000000 = .ok .openDec ∧ decode 0x0A000000 = .ok .close ∧
    decode 0x10000000 = .ok .xform ∧ decode 0x11000000 = .ok .run ∧ decode 0x12000000 = .ok .chainNext ∧
    decode 0x2035000C = .ok (.bigAdd 3 5 12) ∧ decode 0x28300000 = .ok (.sensLoad 3) ∧
    decode 0x29500000 = .ok (.sensAdd 5) ∧ decode 0x2A000000 = .ok .sensSqfold ∧
    decode 0x2B900000 = .ok (.sensExtract 9) ∧ decode 0x30B00004 = .ok (.drd 11 4) ∧ decode 0x31300009 = .ok (.dwr 3 9)

/-- Decoding the word of a well-formed command gives the command back, every operand at every value (R81). -/
def Obligations.DecodeEncodeRoundTrip : Prop := ∀ i : Instr, i.wf = true → decode (encode i) = .ok i

/-- A word that decodes is the word of its command, which is well formed: no bit of a word is dropped (R77, R81). -/
def Obligations.DecodedWordIsItsEncoding : Prop := ∀ (w : Word) (i : Instr), decode w = .ok i → i.wf = true ∧ encode i = w

/-- R77: a word is a command exactly when a row of the opcode map covers it, NOP exactly when it is zero; any other word in
flight makes the core raise ILLEGAL_CMD with the word in ERR_INFO0. -/
def Obligations.WordIsOneCommandOrIllegal : Prop :=
  ∀ w : Word,
    ((∃ i, decode w = .ok i) ↔ ∃ r ∈ opcodeTable, r.covers w = true) ∧ (decode w = .ok .nop ↔ w = 0) ∧
      ∀ (s : State) (f : InFlight), s.inFlight = some f → f.word = w → s.state ≠ .fault →
        (∀ r ∈ opcodeTable, r.covers w = false) →
          ∃ t, coreStep s = .next t ∧ t = s.faultedLike t ⟨.illegalCmd, w, 0⟩

/-! ## The step -/

/-- The core's move runs the command decoded from the word in flight: with no move listed, with the core's move listed, and
while the host waits; and the word placed by `withFetchWord` is run by the very next step. That the moves are a list, that the
core moves where none is listed, the wait and `withFetchWord` are the model's choice (log 4, log 5, log 21). -/
def Obligations.StepRunsDecodedCommand : Prop :=
  (∀ (s : State) (f : InFlight) (i : Instr), s.inFlight = some f → decode f.word = .ok i → i.wf = true →
      (s.events = [] → step s = exec i s) ∧
        (∀ rest, s.events = .core :: rest → step s = exec i { s with events := rest }) ∧
        ∀ rest, s.events = .hostWait :: rest → step s = exec i s) ∧
    ∀ (s : State) (nbits w : Nat) (i : Instr), decodeTableWord nbits w = some i →
      step (s.withFetchWord nbits w) = exec i (s.accept (BitVec.ofNat 32 (w % 2 ^ nbits)))

/-- R76: the commands that are illegal in READY, those illegal in IDLE, each raising ILLEGAL_STATE with the word and STATE; and
no command raises it at its start where the table says it is legal. -/
def Obligations.IllegalStateRaised : Prop :=
  ∀ (i : Instr) (s : State),
    let onlyIdle : List (BitVec 8) := [0x01, 0x02, 0x08, 0x09, 0x20, 0x28, 0x29, 0x2A, 0x2B, 0x31]
    let onlyReady : List (BitVec 8) := [0x0A, 0x10, 0x11, 0x12]
    (s.state = .ready → opcodeOf i ∈ onlyIdle →
        ∃ t, exec i s = .next t ∧ t = s.faultedLike t ⟨.illegalState, encode i, 1⟩) ∧
      (s.state = .idle → opcodeOf i ∈ onlyReady →
        ∃ t, exec i s = .next t ∧ t = s.faultedLike t ⟨.illegalState, encode i, 0⟩) ∧
      ((s.state = .ready ∧ opcodeOf i ∉ onlyIdle) ∨ (s.state = .idle ∧ opcodeOf i ∉ onlyReady) →
        s.phase = .top → s.err ≠ .illegalState → ∃ t, exec i s = .next t ∧ t.err ≠ .illegalState)

/-- R73, R74: a slot, a digit index or a length out of range raises ILLEGAL_OPERAND with the word and `W_T`. -/
def Obligations.IllegalOperandRaised : Prop :=
  ∀ s : State,
    let raises : Instr → Prop := fun i =>
      ∃ t, exec i s = .next t ∧ t = s.faultedLike t ⟨.illegalOperand, encode i, BitVec.ofNat 32 s.wT⟩
    (∀ dst src len, s.state = .idle → 10 < dst ∨ 10 < src ∨ s.wT < len → raises (.bigAdd dst src len)) ∧
      (∀ slot, s.state = .idle → 10 < slot →
        raises (.sensLoad slot) ∧ raises (.sensAdd slot) ∧ raises (.sensExtract slot)) ∧
      (∀ slot k, s.state = .idle ∨ s.state = .ready → 11 < slot ∨ s.wT ≤ k → raises (.drd slot k)) ∧
      ∀ slot k, s.state = .idle → 11 < slot ∨ s.wT ≤ k → raises (.dwr slot k)

/-! ## Reset -/

/-- The state after reset has the value R49 gives for every piece of state that R49 gives one. -/
def Obligations.ResetStateHasResetValues : Prop := State.reset.AtResetValues

/-- R49, R270: a hard reset and a write of 1 to CTRL.SRST, in every state and whatever the other bits, set every piece of state
to its reset value and abort the command in flight; the build's parameters, the ports and the host keep what they hold. -/
def Obligations.ResetMoveGivesResetValues : Prop :=
  ∀ (s : State) (ev : Event) (rest : List Event), s.events = ev :: rest → s.ResetIsNext →
    ∃ t, step s = .next t ∧ t.AtResetValues ∧
      t = { State.reset with
            mMax := s.mMax, base := s.base, initView := s.initView, acc := t.acc, scr := t.scr, freeCtr := t.freeCtr
            srcMore := s.srcMore, srcNext := s.srcNext, snkWrite := s.snkWrite, snkFlush := s.snkFlush
            trace := s.trace, rdata := s.rdata, events := rest }

/-! ## The register window -/

/-- R245: in FAULT a CMD write changes nothing; the registers read their values, DIN and CTRL can be written, DONE and OVR
cleared. -/
def Obligations.CmdWriteIgnoredInFault : Prop :=
  ∀ (s : State) (rest : List Event), s.state = .fault → s.inFlight = none →
    (∀ w, s.events = .host (.write 4 (s.base + 0x10) w) :: rest → step s = .next { s with events := rest }) ∧
      (∀ off, off % 4 = 0 → off < 256 → s.events = .host (.read 4 (s.base + off)) :: rest →
        step s = .next { s with events := rest, rdata := some (s.register off) }) ∧
      (∀ v, s.events = .host (.write 4 (s.base + 0x14) v) :: rest →
        step s = .next { s with events := rest, din := v.extractLsb' 0 8 }) ∧
      (∀ v : Word, v.getLsbD 0 = false → s.events = .host (.write 4 (s.base + 0x08) v) :: rest →
        step s = .next { s with events := rest, ieDone := v.getLsbD 1, ieFault := v.getLsbD 2 }) ∧
      ∀ v : Word, s.events = .host (.write 4 (s.base + 0x0C) v) :: rest →
        step s = .next
          { s with
            events := rest
            done := if v.getLsbD 4 then false else s.done
            ovr := if v.getLsbD 5 then false else s.ovr }

/-- R246: a CMD write while a command is in flight only sets OVR; and OVR, once set, is cleared only by a host write of 1 to it
or by a reset, whatever the step. -/
def Obligations.CmdWriteDroppedWhileBusy : Prop :=
  (∀ (s : State) (w : Word) (rest : List Event), s.state ≠ .fault → s.busy = true →
      s.events = .host (.write 4 (s.base + 0x10) w) :: rest → step s = .next { s with events := rest, ovr := true }) ∧
    ∀ s t : State, step s = .next t → s.ovr = true →
      t.ovr = true ∨ s.ResetIsNext ∨
        ∃ v : Word, v.getLsbD 5 = true ∧ s.events.head? = some (.host (.write 4 (s.base + 0x0C) v))

/-- Host writes: with no command in flight and no fault held CMD is accepted with DIN latched (R70); CTRL without SRST sets the
enables, STATUS clears by writing 1, DIN takes the byte (R59), and every other offset ignores the write (R58). That the CMD
write leaves every word in flight, the words R70 faults included, is the model's choice: the checks are made in the core's
step (log 11). -/
def Obligations.HostWritesActOnTheirRegister : Prop :=
  ∀ (s : State) (off : Nat) (v : Word) (rest : List Event), off % 4 = 0 → off < 256 →
    s.events = .host (.write 4 (s.base + off) v) :: rest →
      (off = 0x10 → s.state ≠ .fault → s.inFlight = none →
        step s = .next
          { s with events := rest, done := false, lastOp := v.extractLsb' 24 8, inFlight := some ⟨v, s.din, .top⟩ }) ∧
        (off = 0x08 → v.getLsbD 0 = false →
          step s = .next { s with events := rest, ieDone := v.getLsbD 1, ieFault := v.getLsbD 2 }) ∧
        (off = 0x0C →
          step s = .next
            { s with
              events := rest
              done := if v.getLsbD 4 then false else s.done
              ovr := if v.getLsbD 5 then false else s.ovr }) ∧
        (off = 0x14 → step s = .next { s with events := rest, din := v.extractLsb' 0 8 }) ∧
        (off ∉ [0x08, 0x0C, 0x10, 0x14] → step s = .next { s with events := rest })

/-- Host reads: the register's value, and nothing else changes (R58, R59); while a command is in flight, offsets other than
those of ID, PARAM, CTRL, STATUS and DIN answer some word (R61). -/
def Obligations.HostReadsAnswerAndChangeNothing : Prop :=
  ∀ (s : State) (off : Nat) (rest : List Event), off % 4 = 0 → off < 256 →
    s.events = .host (.read 4 (s.base + off)) :: rest →
      (s.busy = false ∨ off ∈ [0x00, 0x04, 0x08, 0x0C, 0x14] →
        step s = .next { s with events := rest, rdata := some (s.register off) }) ∧
        (s.busy = true → off ∉ [0x00, 0x04, 0x08, 0x0C, 0x14] →
          ∃ t, step s = .next t ∧ ∃ w, t = { s with events := rest, rdata := some w, freeCtr := t.freeCtr })

/-- The register map (10_state.md R34 to R47), each register as a number; VIEW_POS where its difference is not negative (R45).
That VIEW_POS is not 0 where VIEW_LEN is 0, as right after reset, against vector V51, is the model's choice (log 22). -/
def Obligations.RegisterMapLayout : Prop :=
  ∀ s : State, s.mMax < 65536 →
    let read : Nat → Nat := fun off => (s.register off).toNat
    read 0x00 = 0x43565201 ∧ read 0x04 = s.mMax + 10 * 2 ^ 16 + 11 * 2 ^ 24 ∧
      read 0x08 = 2 * s.ieDone.toNat + 4 * s.ieFault.toNat ∧
      read 0x0C =
        (match s.state with | .idle => 0 | .ready => 1 | .fault => 7) + 8 * s.busy.toNat + 16 * s.done.toNat +
          32 * s.ovr.toNat + 64 * (match s.mode with | .encrypt => 0 | .decrypt => 1) + 256 * s.lastOp.toNat ∧
      read 0x10 = 0 ∧ read 0x14 = s.din.toNat ∧ read 0x18 = s.dout.toNat ∧ s.register 0x1C = s.result ∧
      read 0x20 =
        (match s.err with
          | .none => 0x00 | .invalidKey => 0x01 | .allocationFailure => 0x02 | .sensitivityOverflow => 0x03
          | .ioSource => 0x04 | .ioSink => 0x05 | .illegalCmd => 0x10 | .illegalState => 0x11
          | .illegalOperand => 0x12 | .poolOverflow => 0x14) ∧
      s.register 0x24 = s.errInfo0 ∧ s.register 0x28 = s.errInfo1 ∧ read 0x2C = s.keyLen.toNat ∧
      read 0x30 + 2 ^ 32 * read 0x34 = s.n.toNat ∧ read 0x38 = s.viewLen.toNat + 2 ^ 16 * s.viewCur.toNat ∧
      (s.viewLen.toNat ≤ s.m + 10 → s.m + 10 < 65536 →
        read 0x3C = s.e.val + 2 ^ 16 * (s.m + 10 - s.viewLen.toNat)) ∧
      read 0x40 = s.j.toNat ∧ read 0x44 = s.prev.toNat ∧ read 0x48 + 2 ^ 32 * read 0x4C = s.pool.toNat ∧
      ∀ off, 0x50 ≤ off → read off = 0

/-- R56: a host access has a step exactly when it is a 32-bit access at an offset of the window that is a multiple of 4 (under
which name the model stops is its choice and is not stated here, log 16). -/
def Obligations.HostAccessNeedsWordForm : Prop :=
  ∀ (s : State) (width addr : Nat) (v : Word) (rest : List Event),
    let wordForm : Prop := width = 4 ∧ s.base ≤ addr ∧ addr < s.base + 256 ∧ (addr - s.base) % 4 = 0
    (s.events = .host (.read width addr) :: rest → ((∃ t, step s = .next t) ↔ wordForm)) ∧
      (s.events = .host (.write width addr v) :: rest → ((∃ t, step s = .next t) ↔ wordForm))

/-- R247, R48: IRQ is its formula; clearing DONE by W1C or by acceptance, clearing the one enable concerned, or reset clears it;
and the DONE source, up, falls only by a W1C of DONE, an accepted CMD write, a CTRL write that clears IE_DONE or a reset, the
FAULT source only by a CTRL write that clears IE_FAULT or a reset. -/
def Obligations.InterruptLevelFollowsState : Prop :=
  ∀ s : State,
    let ctrlClears : Nat → Prop := fun bit =>
      ∃ v : Word, v.getLsbD bit = false ∧ s.events.head? = some (.host (.write 4 (s.base + 0x08) v))
    let doneCleared : Prop := ∃ v : Word, v.getLsbD 4 = true ∧ s.events.head? = some (.host (.write 4 (s.base + 0x0C) v))
    let commandAccepted : Prop :=
      s.state ≠ .fault ∧ s.busy = false ∧ ∃ w : Word, s.events.head? = some (.host (.write 4 (s.base + 0x10) w))
    (s.irq = true ↔ (s.ieDone = true ∧ s.done = true) ∨ (s.ieFault = true ∧ s.state = .fault)) ∧
      (s.state ≠ .fault → ∀ w : Word, (s.accept w).irq = false) ∧
      (s.state ≠ .fault → ∀ v : Word, v.getLsbD 4 = true → (s.clearStatus v).irq = false) ∧
      (s.state ≠ .fault → ∀ v : Word, v.getLsbD 1 = false → (s.writeCtrl v).irq = false) ∧
      (s.state = .fault → s.done = false → ∀ v : Word, v.getLsbD 2 = false → (s.writeCtrl v).irq = false) ∧
      s.resetBlock.irq = false ∧
      ∀ t : State, step s = .next t →
        (s.done = true → t.done = true ∨ s.ResetIsNext ∨ doneCleared ∨ commandAccepted) ∧
          (s.ieDone = true → s.done = true →
            (t.ieDone = true ∧ t.done = true ∧ t.irq = true) ∨ s.ResetIsNext ∨ doneCleared ∨ commandAccepted ∨
              ctrlClears 1) ∧
          (s.ieFault = true → s.state = .fault →
            (t.ieFault = true ∧ t.state = .fault ∧ t.irq = true) ∨ s.ResetIsNext ∨ ctrlClears 2)

/-- What no register shows: the key, the digit space and the hidden buffers do not change what a host read answers
(10_state.md R22, R25, 45_host_and_diag.md R221). -/
def Obligations.HostReadsHideStorage : Prop :=
  ∀ (s : State) (key digits : Memory) (acc scr off : Nat),
    ({ s with key := key, digits := digits, acc := acc, scr := scr } : State).hostRead off =
      { s.hostRead off with key := key, digits := digits, acc := acc, scr := scr }

/-! ## Faults and whole-machine rules -/

/-- R241: raising a fault sets STATE, clears BUSY, holds the code and the two words, and changes nothing else. -/
def Obligations.FaultEntryHoldsCodeAndWords : Prop := ∀ (s : State) (f : FaultInfo), s.raise f = s.faultedLike (s.raise f) f

/-- R244: no step but a reset leaves FAULT or changes the error held; a reset clears it. -/
def Obligations.FaultLeftOnlyByReset : Prop :=
  ∀ s t : State, s.state = .fault → step s = .next t →
    (¬ s.ResetIsNext → t.state = .fault ∧ t.err = s.err ∧ t.errInfo0 = s.errInfo0 ∧ t.errInfo1 = s.errInfo1) ∧
      (s.ResetIsNext → t.state = .idle ∧ t.err = .none ∧ t.errInfo0 = 0 ∧ t.errInfo1 = 0)

/-- While an engine is open no step but a reset changes the key or its length (70_reset_and_hazards.md R276). -/
def Obligations.KeyFixedWhileOpen : Prop :=
  ∀ s t : State, s.state = .ready → step s = .next t → ¬ s.ResetIsNext → t.key = s.key ∧ t.keyLen = s.keyLen

/-- A step makes at most one port transaction, and only for a RUN or a CLOSE in flight (45_host_and_diag.md R225). -/
def Obligations.PortsUsedOnlyByRunAndClose : Prop :=
  ∀ s t : State, step s = .next t → t.trace ≠ s.trace →
    (∃ ev, t.trace = ev :: s.trace) ∧
      ∃ f, s.inFlight = some f ∧ (decode f.word = .ok .run ∨ decode f.word = .ok .close)

/-- DONE becomes 1 only when a command in flight ends, not in FAULT (10_state.md R48). -/
def Obligations.DoneMeansCommandCompleted : Prop :=
  ∀ s t : State, step s = .next t → s.done = false → t.done = true →
    s.busy = true ∧ t.busy = false ∧ t.state ≠ .fault

/-- No step changes M_MAX, BASE or INIT_VIEW (10_state.md R35, 20_memory.md R51, 00_scope.md R9); that they are fields of the
state is the model's choice (log 1, log 2, log 3). -/
def Obligations.ParametersNeverChange : Prop :=
  ∀ s t : State, step s = .next t → t.mMax = s.mMax ∧ t.base = s.base ∧ t.initView = s.initView

/-- With a host whose accesses all have the form R56 asks for, the machine never stops: no command and no fault of the block
ends a run (log 16). -/
def Obligations.LegalHostNeverStopsMachine : Prop :=
  ∀ s : State, s.HostKeepsForm → ∃ t, step s = .next t ∧ t.HostKeepsForm

/-- Every step keeps the invariant of the machine, from every state that meets it. -/
def Obligations.StepKeepsInvariant : Prop := ∀ s t : State, s.Inv → step s = .next t → t.Inv

/-- Every step keeps the order of port transactions (20_memory.md R66, 45_host_and_diag.md R227). -/
def Obligations.StepKeepsPortOrder : Prop := ∀ s t : State, s.PortInv → step s = .next t → t.PortInv

/-- The state after reset meets both invariants. Its M_MAX and its hidden buffers are the model's choice (log 1, log 8). -/
def Obligations.ResetMeetsInvariants : Prop := State.reset.Inv ∧ State.reset.PortInv

/-! ## Arithmetic -/

/-- R12: `siglen v` is the least `L` with `v < 256^L`. -/
def Obligations.SiglenIsLeastBound : Prop :=
  (∀ v, v < 256 ^ siglen v ∧ ∀ L, v < 256 ^ L → siglen v ≤ L) ∧ siglen 0 = 0 ∧ siglen 255 = 1 ∧ siglen 256 = 2

/-- R101, R102, R105: the digit loop adds modulo `256^W` with the carry-out that counts what is discarded. -/
def Obligations.AddTruncAddsModuloWidth : Prop :=
  ∀ out inp : List Byte, inp.length ≤ out.length →
    let W := out.length
    let r := addTrunc out inp
    r.out.length = W ∧ valDigits r.out = (valDigits out + valDigits inp) % 256 ^ W ∧
      r.carry = (valDigits out + valDigits inp) / 256 ^ W ∧ r.carry ≤ 1 ∧ r.len = siglen (valDigits r.out) ∧ r.len ≤ W ∧
      (r.len = 0 ↔ valDigits r.out = 0)

/-- R123 (a) to (f). -/
def Obligations.SqfoldLaws : Prop :=
  (∀ x, siglen (sqfold x) ≤ siglen x + 1) ∧ (∀ x, sqfold x = 0 ↔ x = 0) ∧
    (∀ x, 2 ≤ siglen x → 256 ^ (siglen x - 2) ≤ sqfold x ∧ siglen x - 1 ≤ siglen (sqfold x)) ∧
    (∀ L, 2 ≤ L → sqfold (256 ^ (L - 1)) = 256 ^ (L - 2)) ∧
    (∀ x, siglen x = 1 → sqfold x = x * x % 256 + x * x / 256) ∧ sqfold 1 = 1 ∧
    (∀ L, sqfold (256 ^ L - 1) = 256 ^ L - 1) ∧
    ∀ x W, siglen x ≤ W → sqfold x < 2 * 256 ^ siglen x ∧ 2 * 256 ^ siglen x ≤ 2 * 256 ^ W ∧ 2 * 256 ^ W < 256 ^ (W + 1)

/-- R122: the schoolbook procedure squares exactly within its buffers, and its fold by `add_trunc` of width `W_S + 1` is
`sqfold` with carry-out 0. -/
def Obligations.SchoolbookComputesSqfold : Prop :=
  ∀ x W, siglen x ≤ W →
    (∀ i < siglen x, x * (digit x i).toNat < 256 ^ (W + 1)) ∧ (∀ i ≤ siglen x, schoolbookAcc x i < 256 ^ (2 * W)) ∧
      schoolbookAcc x (siglen x) = x * x ∧ valDigits (schoolbookFold (W + 1) x).out = sqfold x ∧
      (schoolbookFold (W + 1) x).carry = 0

/-- R199: the integer laws of the byte step, for both directions. -/
def Obligations.ByteTransformLaws : Prop :=
  (∀ s : State, s.stepKey ≤ 255) ∧
    (∀ xin k, xin ≤ 255 → k ≤ 255 →
      ((encryptByte xin k).quot = if 256 ≤ xin + k then 1 else 0) ∧ (encryptByte xin k).out = (xin + k) % 256 ∧
        (encryptByte xin k).plain = xin ∧ ((decryptByte xin k).quot = if xin < k then 1 else 0) ∧
        ((decryptByte xin k).out : Int) = (xin : Int) - k + 256 * (decryptByte xin k).quot ∧
        (decryptByte xin k).out ≤ 255 ∧ (decryptByte xin k).plain = (decryptByte xin k).out) ∧
    ∀ (s t : State) (xin out : Byte), s.viewExhausted = false → s.byteStep xin = .ok (t, out) →
      t.j.toNat < s.viewLen.toNat ∧ t.viewLen = s.viewLen ∧ t.viewCur.toNat = s.viewCur.toNat + 1

/-! ## Commands: housekeeping, diagnostics and key loading -/

/-- NOP completes with no effect (R220). -/
def Obligations.NopCompletes : Prop :=
  ∀ s : State, s.state = .idle ∨ s.state = .ready → ∃ t, exec .nop s = .next t ∧ t = s.completedLike t

/-- DRD puts the digit in RESULT and changes nothing else (R222). -/
def Obligations.DrdReadsDigit : Prop :=
  ∀ (s : State) (slot k : Nat), s.state = .idle ∨ s.state = .ready → slot ≤ 11 → k < s.wT →
    ∃ t, exec (.drd slot k) s = .next t ∧
      t = { s.completedLike t with result := (s.digits.read (digitAddr slot k)).setWidth 32 }

/-- DWR stores the latched byte in the one digit and leaves RESULT and every other digit (R223). At a state with no command in
flight the latched byte is DIN: the model's choice (log 17). -/
def Obligations.DwrWritesDigit : Prop :=
  ∀ (s : State) (slot k : Nat), s.state = .idle → slot ≤ 11 → k < s.wT → s.digits.wf = true →
    ∃ t, exec (.dwr slot k) s = .next t ∧ t = { s.completedLike t with digits := t.digits } ∧
      ∀ a, t.digits.read a = if a = digitAddr slot k then s.latchedDin else s.digits.read a

/-- KEY_CLEAR empties the key buffer and leaves the digit space and every register but KEY_LEN (R160). -/
def Obligations.KeyClearEmptiesKey : Prop :=
  ∀ s : State, s.state = .idle →
    ∃ t, exec .keyClear s = .next t ∧ t = { s.completedLike t with key := t.key, keyLen := 0 } ∧ ∀ i, t.keyByte i = 0

/-- KEY_PUSH appends the byte as the password's least significant digit, or raises ALLOCATION_FAILURE when the buffer is full
(R161, R162). -/
def Obligations.KeyPushAppendsByte : Prop :=
  ∀ (s : State) (b : Byte), s.state = .idle → s.key.wf = true → s.mMax ≤ 65525 → s.m ≤ s.mMax →
    (s.m ≠ s.mMax →
      ∃ t, exec (.keyPush b) s = .next t ∧ t = { s.completedLike t with key := t.key, keyLen := t.keyLen } ∧
        t.m = s.m + 1 ∧ (∀ i, t.keyByte i = if i = s.m then b else s.keyByte i) ∧
        t.password = 256 * s.password + b.toNat ∧ t.password < 256 ^ t.m) ∧
      (s.m = s.mMax →
        ∃ t, exec (.keyPush b) s = .next t ∧
          t = s.faultedLike t ⟨.allocationFailure, BitVec.ofNat 32 (s.mMax + 1), BitVec.ofNat 32 (s.mMax + 11)⟩)

/-! ## Commands: the arithmetic units -/

/-- BIGADD adds the low `len` digits of one slot into another, with the carry and the significant length in RESULT; the case
`dst = src` included (R104). -/
def Obligations.BigAddAddsSlots : Prop :=
  ∀ (s : State) (dst src len : Nat), s.state = .idle → dst ≤ 10 → src ≤ 10 → len ≤ s.wT → s.m ≤ 65525 →
    s.digits.wf = true →
      ∃ t, exec (.bigAdd dst src len) s = .next t ∧
        t = { s.completedLike t with digits := t.digits, result := t.result } ∧
        t.slotVal dst = (s.slotVal dst + s.slotVal src % 256 ^ len) % 256 ^ s.wT ∧
        t.result.toNat = (s.slotVal dst + s.slotVal src % 256 ^ len) / 256 ^ s.wT + 65536 * siglen (t.slotVal dst) ∧
        ∀ a, ¬ s.IsActiveDigit dst a → t.digits.read a = s.digits.read a

/-- SENS_LOAD loads a slot of at most `W_S` digits, or raises SENSITIVITY_OVERFLOW and changes no digit (R144). -/
def Obligations.SensLoadLoadsSlot : Prop :=
  ∀ (s : State) (src : Nat), s.state = .idle → src ≤ 10 → s.digits.wf = true →
    (siglen (s.slotVal src) ≤ s.wS →
      ∃ t, exec (.sensLoad src) s = .next t ∧
        t = { s.completedLike t with digits := t.digits, result := t.result } ∧ t.sensVal = s.slotVal src ∧
        t.result.toNat = siglen (s.slotVal src) ∧ ∀ a, ¬ s.IsActiveDigit 11 a → t.digits.read a = s.digits.read a) ∧
      (s.wS < siglen (s.slotVal src) →
        ∃ t, exec (.sensLoad src) s = .next t ∧
          t =
            s.faultedLike t
              ⟨.sensitivityOverflow, BitVec.ofNat 32 (siglen (s.slotVal src)), BitVec.ofNat 32 (s.m + 9)⟩)

/-- SENS_ADD adds a slot while the exact sum has at most `W_S` digits, or raises SENSITIVITY_OVERFLOW and changes no digit
(R145). -/
def Obligations.SensAddAddsSlot : Prop :=
  ∀ (s : State) (src : Nat), s.state = .idle → src ≤ 10 → s.digits.wf = true →
    (s.sensVal + s.slotVal src < 256 ^ s.wS →
      ∃ t, exec (.sensAdd src) s = .next t ∧
        t = { s.completedLike t with digits := t.digits, result := t.result } ∧
        t.sensVal = s.sensVal + s.slotVal src ∧ t.result.toNat = siglen (s.sensVal + s.slotVal src) ∧
        ∀ a, ¬ s.IsActiveDigit 11 a → t.digits.read a = s.digits.read a) ∧
      (256 ^ s.wS ≤ s.sensVal + s.slotVal src →
        ∃ t, exec (.sensAdd src) s = .next t ∧
          t =
            s.faultedLike t
              ⟨.sensitivityOverflow, BitVec.ofNat 32 (siglen (s.sensVal + s.slotVal src)), BitVec.ofNat 32 (s.m + 9)⟩)

/-- SENS_SQFOLD replaces the Sensitivity value by its square-and-fold, or raises SENSITIVITY_OVERFLOW and changes no digit
(R124). -/
def Obligations.SensSqfoldFoldsSquare : Prop :=
  ∀ s : State, s.state = .idle → s.digits.wf = true →
    (siglen s.sensVal ≤ s.wS →
      ∃ t, exec .sensSqfold s = .next t ∧
        t = { s.completedLike t with digits := t.digits, result := t.result } ∧ t.sensVal = sqfold s.sensVal ∧
        t.result.toNat = siglen (sqfold s.sensVal) ∧
        ∀ a, ¬ s.IsActiveDigit 11 a → t.digits.read a = s.digits.read a) ∧
      (s.wS < siglen s.sensVal →
        ∃ t, exec .sensSqfold s = .next t ∧
          t = s.faultedLike t ⟨.sensitivityOverflow, BitVec.ofNat 32 (siglen s.sensVal), BitVec.ofNat 32 (s.m + 9)⟩)

/-- SENS_EXTRACT copies the Sensitivity value into a slot, leading zeros included, with the padding count in RESULT (R146). -/
def Obligations.SensExtractCopiesValue : Prop :=
  ∀ (s : State) (dst : Nat), s.state = .idle → dst ≤ 10 → s.digits.wf = true →
    ∃ t, exec (.sensExtract dst) s = .next t ∧
      t = { s.completedLike t with digits := t.digits, result := t.result } ∧ t.slotVal dst = s.sensVal ∧
      (∀ k < s.wT, t.digits.read (digitAddr dst k) = s.digits.read (digitAddr 11 k)) ∧
      t.result.toNat = s.wT - siglen s.sensVal ∧ ∀ a, ¬ s.IsActiveDigit dst a → t.digits.read a = s.digits.read a

/-! ## Commands: opening the engine and the chain -/

/-- OPEN_ENC and OPEN_DEC with a key: the ten seed terms, SENS the last of them, every other digit of every slot zero, the
engine's registers at their start, the term-9 view consumed or, for a block with INIT_VIEW = FRESH, unread (R147, R163, R190,
R223). That OPEN completes with every key is deduced, where R148 gives evidence and no bound (log 23); that it zeroes the
digits of SENS above `W_T` too is deduced from 92_eei_decisions.md D30 (log 12). -/
def Obligations.OpenBuildsChain : Prop :=
  ∀ (s : State) (i : Instr) (mode : Mode), (i = .openEnc ∧ mode = .encrypt) ∨ (i = .openDec ∧ mode = .decrypt) →
    s.state = .idle → s.m ≠ 0 →
      ∃ t, exec i s = .next t ∧ (∀ n ≤ 9, t.slotVal n = seedTerm s.password n) ∧ t.slotVal 10 = 0 ∧
        t.sensVal = seedTerm s.password 9 ∧ t.viewLen.toNat = siglen (seedTerm s.password 9 % 256 ^ s.m) ∧
        (∀ a, (∀ slot ≤ 11, ¬ s.IsActiveDigit slot a) → t.digits.read a = 0) ∧
        t =
          { s.completedLike t with
            digits := t.digits, n := 9, e := 9, viewLen := t.viewLen
            viewCur := match s.initView with | .exhausted => t.viewLen | .fresh => 0
            j := 0, pool := 0, prev := 0, mode := mode, dout := 0, state := .ready }

/-- OPEN with an empty key raises INVALID_KEY and changes nothing else (R190, R240). -/
def Obligations.OpenWithoutKeyRaisesInvalidKey : Prop :=
  ∀ (s : State) (i : Instr), i = .openEnc ∨ i = .openDec → s.state = .idle → s.m = 0 →
    ∃ t, exec i s = .next t ∧ t = s.faultedLike t ⟨.invalidKey, 0, 0⟩

/-- The bound the source does not derive (R148, 93_implementation_defined.md): the sum of round `n` of seeding has at most
`m + 1 + n` digits, so seeding never meets SENSITIVITY_OVERFLOW and ends with SENS below `256^W_S`. -/
def Obligations.SeedingNeverOverflows : Prop :=
  (∀ p m, p < 256 ^ m → ∀ n, siglen (seedTerm p (n + 1) + seedTerm p n) ≤ m + 1 + n) ∧
    ∀ s : State, s.digits.wf = true → s.seed.2 = none ∧ s.seed.1.sensVal < 256 ^ s.wS

/-- CHAIN_NEXT takes one round of `next()`: the new term is the truncated sum of the terms 10 and 7 back; a term with a usable
suffix completes the command with a fresh view, J 0 and its length in RESULT, one without keeps it in flight (R165, R170). One
round to a core step is the model's choice (log 10). -/
def Obligations.ChainNextAdvancesChain : Prop :=
  ∀ s : State, s.state = .ready → s.digits.wf = true →
    let new := (s.e.val + 1) % 11
    let term := (s.slotVal ((s.e.val + 2) % 11) + s.slotVal ((s.e.val + 5) % 11)) % 256 ^ s.wT
    let len := siglen (term % 256 ^ s.m)
    ∃ t, exec .chainNext s = .next t ∧ t.slotVal new = term ∧ t.n = s.n + 1 ∧ t.e.val = new ∧
      (∀ a, ¬ s.IsActiveDigit new a → t.digits.read a = s.digits.read a) ∧
      (len ≠ 0 →
        t =
          { s.completedLike t with
            digits := t.digits, n := t.n, e := t.e, viewLen := BitVec.ofNat 16 len, viewCur := 0, j := 0
            result := BitVec.ofNat 32 len }) ∧
      (len = 0 → t = { s with digits := t.digits, n := t.n, e := t.e })

/-- R169, and the first byte of a yielded view: a view installed by `next()` has a length from 1 to `m`, is not exhausted and
begins with a byte that is not zero; the view of `chain_init()` has a length of at most `m`. -/
def Obligations.YieldedViewIsUsable : Prop :=
  ∀ s : State, s.digits.wf = true →
    (s.advanceTerm.newestUsable ≠ 0 →
      1 ≤ s.fetchRound.viewLen.toNat ∧ s.fetchRound.viewLen.toNat ≤ s.m ∧ s.fetchRound.viewExhausted = false ∧
        s.fetchRound.viewByte 0 ≠ 0) ∧
      s.startView.viewLen.toNat ≤ s.m

/-- After OPEN the ring is alive when the key is not all zero, and dead with the view exhausted when it is (R168). -/
def Obligations.OpenedRingLivesUnlessKeyZero : Prop :=
  ∀ (s t : State) (i : Instr), i = .openEnc ∨ i = .openDec → s.state = .idle →
    exec i s = .next t → t.state = .ready →
      (s.password ≠ 0 → t.RingAlive) ∧ (s.password = 0 → t.RingDead ∧ t.viewExhausted = true)

/-- A live ring stays alive while the engine is open, whatever the step (R168). -/
def Obligations.LiveRingStaysAlive : Prop :=
  ∀ s t : State, s.state = .ready → s.digits.wf = true → s.RingAlive → step s = .next t → t.state = .ready → t.RingAlive

/-- R168 (a): with a live ring a CHAIN_NEXT completes within ten core steps, and an XFORM ends within eleven. One round of
`next()` to a core step is the model's choice (log 10). -/
def Obligations.NextEndsWithinTenRounds : Prop :=
  ∀ (s : State) (f : InFlight), s.state = .ready → s.digits.wf = true → s.RingAlive → s.inFlight = some f →
    (decode f.word = .ok .chainNext →
      (coreSteps 10 s).busy = false ∧ (coreSteps 10 s).done = true ∧ (coreSteps 10 s).state = .ready) ∧
      (decode f.word = .ok .xform →
        (coreSteps 11 s).busy = false ∧
          (((coreSteps 11 s).done = true ∧ (coreSteps 11 s).state = .ready) ∨ (coreSteps 11 s).err = .poolOverflow))

/-- R168 (b), R275 (a): with a dead ring a CHAIN_NEXT, and an XFORM or the byte step of a RUN on an exhausted view, stay BUSY
for ever. -/
def Obligations.DeadRingHangs : Prop :=
  ∀ (s : State) (f : InFlight), s.state = .ready → s.digits.wf = true → s.RingDead → s.inFlight = some f →
    decode f.word = .ok .chainNext ∨ (decode f.word = .ok .xform ∧ s.viewExhausted = true) ∨
      (decode f.word = .ok .run ∧ s.viewExhausted = true ∧ ∃ b, f.phase = .haveByte b) →
    ∀ k, (coreSteps k s).busy = true

/-! ## Commands: the byte engine -/

/-- XFORM on a view that is not exhausted, in both modes: J, VIEW_CUR, POOL, PREV and DOUT as R193 computes them and nothing
else; or POOL_OVERFLOW with none of them written (R194, R196). At a state with no command in flight the latched byte is DIN: the
model's choice (log 17). -/
def Obligations.XformTransformsByte : Prop :=
  ∀ s : State, s.state = .ready → s.viewCur.toNat < s.viewLen.toNat →
    let view : Nat → Byte := fun i => s.digits.read (digitAddr s.e.val (s.viewLen.toNat - 1 - i))
    let j := (s.j.toNat + s.prev.toNat) % s.viewLen.toNat
    let consumed := view s.viewCur.toNat
    let u := if consumed = 0 then s.pool.toNat % 256 else consumed.toNat
    let pool := if consumed = 0 then s.pool.toNat / 256 else s.pool.toNat
    let k := (u + (view j).toNat) / 2
    let x := s.latchedDin.toNat
    let q := match s.mode with | .encrypt => (x + k) / 256 | .decrypt => if x < k then 1 else 0
    let out := match s.mode with | .encrypt => (x + k) % 256 | .decrypt => (x + 256 - k) % 256
    let plain := match s.mode with | .encrypt => x | .decrypt => out
    (pool + q < 2 ^ 64 →
      ∃ t, exec .xform s = .next t ∧
        t =
          { s.completedLike t with
            j := BitVec.ofNat 16 j, viewCur := s.viewCur + 1, pool := BitVec.ofNat 64 (pool + q)
            prev := BitVec.ofNat 8 plain, dout := BitVec.ofNat 8 out }) ∧
      (2 ^ 64 ≤ pool + q → ∃ t, exec .xform s = .next t ∧ t = s.faultedLike t ⟨.poolOverflow, 0, 0⟩)

/-- XFORM on an exhausted view takes one round of `next()` and stays in flight: a term with a usable suffix installs its view
and sets J to 0, one without is skipped (R165, R193, R194). One round to a core step is the model's choice (log 10). -/
def Obligations.XformFetchesTerm : Prop :=
  ∀ s : State, s.state = .ready → s.viewLen.toNat ≤ s.viewCur.toNat → s.digits.wf = true →
    ∃ t, exec .xform s = .next t ∧ s.TermFetched t

/-- CLOSE makes one flush: answered ok it returns to IDLE keeping every other register, answered with an error it raises
IO_SINK, not answered it waits (R197). That a port not answered yet is an empty queue is the model's choice (log 6). -/
def Obligations.CloseFlushesSink : Prop :=
  ∀ s : State, s.state = .ready →
    (∀ rest, s.snkFlush = .ok () :: rest →
      ∃ t, exec .close s = .next t ∧
        t = { s.completedLike t with state := .idle, snkFlush := rest, trace := .flush (.ok ()) :: s.trace }) ∧
      (∀ e rest, s.snkFlush = .err e :: rest →
        ∃ t, exec .close s = .next t ∧
          t = { s.faultedLike t ⟨.ioSink, e, 3⟩ with snkFlush := rest, trace := .flush (.err e) :: s.trace }) ∧
      (s.snkFlush = [] → exec .close s = .next s)

/-- RUN at its source: the answers of `SRC.has_more()` and `SRC.next()` lead to the next byte, the final flush or IO_SOURCE
behind its flush; without an answer the core waits (R195, R226, R227). That each transaction is one core step, and a port not
answered yet an empty queue, is the model's choice (log 6, log 10). -/
def Obligations.RunAsksItsSource : Prop :=
  ∀ (s : State) (f : InFlight), s.state = .ready → s.inFlight = some f →
    (f.phase = .top →
      (∀ rest, s.srcMore = .ok true :: rest →
        exec .run s = .next
          { s with
            srcMore := rest, trace := .hasMore (.ok true) :: s.trace, inFlight := some { f with phase := .needByte } }) ∧
        (∀ rest, s.srcMore = .ok false :: rest →
          exec .run s = .next
            { s with
              srcMore := rest, trace := .hasMore (.ok false) :: s.trace
              inFlight := some { f with phase := .finalFlush } }) ∧
        (∀ e rest, s.srcMore = .err e :: rest →
          exec .run s = .next
            { s with
              srcMore := rest, trace := .hasMore (.err e) :: s.trace
              inFlight := some { f with phase := .faultFlush ⟨.ioSource, e, 0⟩ } }) ∧
        (s.srcMore = [] → exec .run s = .next s)) ∧
      (f.phase = .needByte →
        (∀ b rest, s.srcNext = .ok b :: rest →
          exec .run s = .next
            { s with
              srcNext := rest, trace := .next (.ok b) :: s.trace, inFlight := some { f with phase := .haveByte b } }) ∧
          (∀ e rest, s.srcNext = .err e :: rest →
            exec .run s = .next
              { s with
                srcNext := rest, trace := .next (.err e) :: s.trace
                inFlight := some { f with phase := .faultFlush ⟨.ioSource, e, 1⟩ } }) ∧
          (s.srcNext = [] → exec .run s = .next s))

/-- RUN at its sink: a write answered ok returns to the top of the loop, one answered with an error waits with IO_SINK for its
flush; without an answer the core waits (R195, R228). The steps and the queues are the model's choice (log 6, log 10). -/
def Obligations.RunWritesItsSink : Prop :=
  ∀ (s : State) (f : InFlight) (out : Byte), s.state = .ready → s.inFlight = some f → f.phase = .putByte out →
    (∀ rest, s.snkWrite = .ok () :: rest →
      exec .run s = .next
        { s with
          snkWrite := rest, trace := .write out (.ok ()) :: s.trace, inFlight := some { f with phase := .top } }) ∧
      (∀ e rest, s.snkWrite = .err e :: rest →
        exec .run s = .next
          { s with
            snkWrite := rest, trace := .write out (.err e) :: s.trace
            inFlight := some { f with phase := .faultFlush ⟨.ioSink, e, 2⟩ } }) ∧
      (s.snkWrite = [] → exec .run s = .next s)

/-- The end of a RUN: the final flush completes it or raises IO_SINK; a fault of its loop is raised after one flush whose answer
is ignored; without an answer the core waits (R195, R255). The steps and the queues are the model's choice (log 6, log 10). -/
def Obligations.RunEndsWithFlush : Prop :=
  ∀ (s : State) (f : InFlight), s.state = .ready → s.inFlight = some f →
    (f.phase = .finalFlush →
      (∀ rest, s.snkFlush = .ok () :: rest →
        ∃ t, exec .run s = .next t ∧
          t = { s.completedLike t with snkFlush := rest, trace := .flush (.ok ()) :: s.trace }) ∧
        (∀ e rest, s.snkFlush = .err e :: rest →
          ∃ t, exec .run s = .next t ∧
            t = { s.faultedLike t ⟨.ioSink, e, 3⟩ with snkFlush := rest, trace := .flush (.err e) :: s.trace })) ∧
      (∀ g, f.phase = .faultFlush g →
        ∀ a rest, s.snkFlush = a :: rest →
          ∃ t, exec .run s = .next t ∧ t = { s.faultedLike t g with snkFlush := rest, trace := .flush a :: s.trace }) ∧
      (f.phase = .finalFlush ∨ (∃ g, f.phase = .faultFlush g) → s.snkFlush = [] → exec .run s = .next s)

/-- RUN's byte. On a view that is not exhausted, when the ports answer: four core steps ask, take, transform and write exactly
one byte, in that order, with the byte step of XFORM, and stand at the top of the loop again (R195, R201, R55). On an exhausted
view, as for the first byte after OPEN: the byte step takes one round of `next()` with the byte still in hand (R193, R195).
Where the pool overflows: the byte step heads for POOL_OVERFLOW behind its flush and writes nothing else (R195, R196, R255).
The number of core steps is the model's choice (log 10). -/
def Obligations.RunMovesOneByte : Prop :=
  (∀ (s u : State) (f : InFlight) (b out : Byte) (more : List (Answer Bool)) (next : List (Answer Byte))
      (write : List (Answer Unit)),
      s.state = .ready → s.inFlight = some f → f.phase = .top → decode f.word = .ok .run → s.viewExhausted = false →
      s.srcMore = .ok true :: more → s.srcNext = .ok b :: next → s.snkWrite = .ok () :: write →
      s.byteStep b = .ok (u, out) →
        coreSteps 4 s =
          { u with
            dout := out, srcMore := more, srcNext := next, snkWrite := write
            trace := .write out (.ok ()) :: .next (.ok b) :: .hasMore (.ok true) :: s.trace }) ∧
    (∀ (s : State) (f : InFlight) (b : Byte), s.state = .ready → s.inFlight = some f → f.phase = .haveByte b →
      s.viewLen.toNat ≤ s.viewCur.toNat → s.digits.wf = true → ∃ t, exec .run s = .next t ∧ s.TermFetched t) ∧
    ∀ (s : State) (f : InFlight) (b : Byte), s.state = .ready → s.inFlight = some f → f.phase = .haveByte b →
      s.viewCur.toNat < s.viewLen.toNat →
      2 ^ 64 ≤ s.drainedPool + (transformByte s.mode b.toNat s.stepKey).quot →
        exec .run s = .next { s with inFlight := some { f with phase := .faultFlush ⟨.poolOverflow, 0, 0⟩ } }

/-- RUN on an empty source: one `SRC.has_more()` answering false, one `SNK.flush()`, and the command completes with no change to
the engine (R195). The number of core steps is the model's choice (log 10). -/
def Obligations.RunOnEmptySourceOnlyFlushes : Prop :=
  ∀ (s : State) (f : InFlight) (more : List (Answer Bool)) (flush : List (Answer Unit)),
    s.state = .ready → s.inFlight = some f → f.phase = .top → decode f.word = .ok .run →
    s.srcMore = .ok false :: more → s.snkFlush = .ok () :: flush →
      coreSteps 2 s =
        { s.completedLike (coreSteps 2 s) with
          srcMore := more, snkFlush := flush, trace := .flush (.ok ()) :: .hasMore (.ok false) :: s.trace }

/-- R198: a key that is not all zero and opens without fault, a stream shorter than the pool's range: what XFORM encrypts from
OPEN_ENC, XFORM decrypts from OPEN_DEC, and both engines stay READY. -/
def Obligations.StreamRoundTrip : Prop :=
  ∀ (s enc dec : State) (bytes : List Byte), s.state = .idle → s.password ≠ 0 →
    exec .openEnc s = .next enc → enc.state = .ready → exec .openDec s = .next dec → bytes.length < 2 ^ 64 →
      (xformStream (xformStream bytes enc).2 dec).2 = bytes ∧ (xformStream bytes enc).1.state = .ready ∧
        (xformStream (xformStream bytes enc).2 dec).1.state = .ready
end

