-- ==== Sys2Proof/Laws/Decode.lean ====
section
/-! SUPPORT. Laws of the command word: its value (30_encoding.md R81), its fields (R71), and the rows of the opcode table. -/

namespace Sys2Proof

theorem toNat_append_eq {m n : Nat} (x : BitVec m) (y : BitVec n) : (x ++ y).toNat = x.toNat * 2 ^ n + y.toNat := by
  rw [BitVec.toNat_append, ← Nat.shiftLeft_add_eq_or_of_lt y.isLt, Nat.shiftLeft_eq]

/-- The word of four fields as a number: `(OPC << 24) + (S1 << 20) + (S2 << 16) + IMM`. -/
theorem toNat_packFields (o : BitVec 8) (a b : BitVec 4) (i : BitVec 16) :
    (packFields o a b i).toNat = o.toNat * 2 ^ 24 + a.toNat * 2 ^ 20 + b.toNat * 2 ^ 16 + i.toNat := by
  have h1 := toNat_append_eq (o ++ a ++ b) i
  have h2 := toNat_append_eq (o ++ a) b
  have h3 := toNat_append_eq o a
  refine h1.trans ?_
  rw [h2, h3]
  omega

/-- A field read from a word, as a number. -/
theorem toNat_field (w : Word) (low width : Nat) : (w.extractLsb' low width).toNat = w.toNat / 2 ^ low % 2 ^ width := by
  rw [BitVec.extractLsb'_toNat, Nat.shiftRight_eq_div_pow]

@[simp] theorem opcField_packFields (o : BitVec 8) (a b : BitVec 4) (i : BitVec 16) : opcField (packFields o a b i) = o := by
  apply BitVec.eq_of_toNat_eq
  have h1 := o.isLt; have h2 := a.isLt; have h3 := b.isLt; have h4 := i.isLt
  rw [opcField, toNat_field, toNat_packFields]
  omega

@[simp] theorem s1Field_packFields (o : BitVec 8) (a b : BitVec 4) (i : BitVec 16) : s1Field (packFields o a b i) = a := by
  apply BitVec.eq_of_toNat_eq
  have h1 := o.isLt; have h2 := a.isLt; have h3 := b.isLt; have h4 := i.isLt
  rw [s1Field, toNat_field, toNat_packFields]
  omega

@[simp] theorem s2Field_packFields (o : BitVec 8) (a b : BitVec 4) (i : BitVec 16) : s2Field (packFields o a b i) = b := by
  apply BitVec.eq_of_toNat_eq
  have h1 := o.isLt; have h2 := a.isLt; have h3 := b.isLt; have h4 := i.isLt
  rw [s2Field, toNat_field, toNat_packFields]
  omega

@[simp] theorem immField_packFields (o : BitVec 8) (a b : BitVec 4) (i : BitVec 16) : immField (packFields o a b i) = i := by
  apply BitVec.eq_of_toNat_eq
  have h1 := o.isLt; have h2 := a.isLt; have h3 := b.isLt; have h4 := i.isLt
  rw [immField, toNat_field, toNat_packFields]
  omega

@[simp] theorem reserved_CF0 (o : BitVec 8) : (packFields o 0#4 0#4 0#16).extractLsb' 0 24 = 0 := by
  apply BitVec.eq_of_toNat_eq
  rw [toNat_field, toNat_packFields]
  simp

@[simp] theorem reserved_CFS (o : BitVec 8) (a : BitVec 4) : (packFields o a 0#4 0#16).extractLsb' 0 20 = 0 := by
  apply BitVec.eq_of_toNat_eq
  have h1 := o.isLt; have h2 := a.isLt
  rw [toNat_field, toNat_packFields]
  simp
  omega

@[simp] theorem reserved_CFSK (o : BitVec 8) (a : BitVec 4) (k : BitVec 16) :
    (packFields o a 0#4 k).extractLsb' 16 4 = 0 := by
  apply BitVec.eq_of_toNat_eq
  have h1 := o.isLt; have h2 := a.isLt; have h3 := k.isLt
  rw [toNat_field, toNat_packFields]
  simp
  omega

@[simp] theorem reserved_CFB (o : BitVec 8) (b : Byte) :
    (packFields o 0#4 0#4 (b.setWidth 16)).extractLsb' 8 16 = 0 := by
  apply BitVec.eq_of_toNat_eq
  have h1 := o.isLt; have h2 := b.isLt
  rw [toNat_field, toNat_packFields]
  simp
  omega

@[simp] theorem byteField_CFB (o : BitVec 8) (b : Byte) : byteField (packFields o 0#4 0#4 (b.setWidth 16)) = b := by
  apply BitVec.eq_of_toNat_eq
  have h1 := o.isLt; have h2 := b.isLt
  rw [byteField, toNat_field, toNat_packFields]
  simp
  omega

/-- Two words with the same four fields are one word. -/
theorem word_eq_packFields (w : Word) : w = packFields (opcField w) (s1Field w) (s2Field w) (immField w) := by
  apply BitVec.eq_of_toNat_eq
  have h := w.isLt
  rw [toNat_packFields, opcField, s1Field, s2Field, immField, toNat_field, toNat_field, toNat_field, toNat_field]
  omega

/-- No word is of two rows of the opcode table: the rows differ in a bit both fix (30_encoding.md R77). -/
theorem opcodeTable_disjoint : opcodeTable.Pairwise fun r q => (r.bits ^^^ q.bits) &&& (r.mask &&& q.mask) ≠ 0 := by
  decide

/-- The table has a row for each of the sixteen commands (30_encoding.md R75). -/
theorem opcodeTable_length : opcodeTable.length = 16 := rfl

@[simp] theorem ifReservedZero_zero {w : Word} {low width : Nat} (h : w.extractLsb' low width = 0) (i : Instr) :
    ifReservedZero w low width i = .ok i := if_pos h

theorem ifReservedZero_ok {w : Word} {low width : Nat} {i j : Instr} (h : ifReservedZero w low width i = .ok j) :
    w.extractLsb' low width = 0 ∧ j = i := by
  unfold ifReservedZero at h
  split at h
  · exact ⟨‹_›, (Except.ok.inj h).symm⟩
  · cases h

end Sys2Proof
end

