-- ==== Sys2Proof/Laws/Memory.lean ====
section
/-! SUPPORT. Laws of byte storage: a read after a write, and every operation keeps the canonical form. -/

namespace Sys2Proof.Machine

@[simp] theorem Memory.read_nil (x : Nat) : Memory.read [] x = 0 := rfl

/-- Below the least address of a canonical memory nothing is listed. -/
theorem Memory.read_below {lo : Nat} {m : Memory} (h : Memory.wfFrom lo m = true) {x : Nat} (hx : x < lo) :
    m.read x = 0 := by
  induction m generalizing lo with
  | nil => rfl
  | cons c rest ih =>
    obtain ⟨a, b⟩ := c
    simp only [Memory.wfFrom, Bool.and_eq_true, decide_eq_true_eq] at h
    have hxa : x ≠ a := by omega
    simpa [Memory.read, hxa] using ih h.2 (by omega)

theorem Memory.wfFrom_mono {lo lo' : Nat} {m : Memory} (h : Memory.wfFrom lo m = true) (hl : lo' ≤ lo) :
    Memory.wfFrom lo' m = true := by
  cases m with
  | nil => rfl
  | cons c rest =>
    obtain ⟨a, b⟩ := c
    simp only [Memory.wfFrom, Bool.and_eq_true, decide_eq_true_eq] at h ⊢
    exact ⟨⟨by omega, h.1.2⟩, h.2⟩

theorem Memory.wfFrom_write {lo : Nat} {m : Memory} (h : Memory.wfFrom lo m = true) {x : Nat} (hx : lo ≤ x) (v : Byte) :
    Memory.wfFrom lo (m.write x v) = true := by
  induction m generalizing lo with
  | nil =>
    simp only [Memory.write]
    split
    · rfl
    · rename_i hv; simp [Memory.wfFrom, hx, hv]
  | cons c rest ih =>
    obtain ⟨a, b⟩ := c
    have h' := h
    simp only [Memory.wfFrom, Bool.and_eq_true, decide_eq_true_eq] at h
    obtain ⟨⟨h1, h2⟩, h3⟩ := h
    simp only [Memory.write]
    split
    · rename_i hxa
      split
      · exact h'
      · rename_i hv
        simp only [Memory.wfFrom, Bool.and_eq_true, decide_eq_true_eq]
        exact ⟨⟨hx, hv⟩, ⟨by omega, h2⟩, h3⟩
    · split
      · split
        · exact Memory.wfFrom_mono h3 (by omega)
        · rename_i hxa hv
          subst hxa
          simp only [Memory.wfFrom, Bool.and_eq_true, decide_eq_true_eq]
          exact ⟨⟨hx, hv⟩, h3⟩
      · simp only [Memory.wfFrom, Bool.and_eq_true, decide_eq_true_eq]
        exact ⟨⟨h1, h2⟩, ih h3 (by omega)⟩

/-- A write keeps the canonical form. -/
theorem Memory.wf_write {m : Memory} (h : m.wf = true) (x : Nat) (v : Byte) : (m.write x v).wf = true :=
  Memory.wfFrom_write h (Nat.zero_le x) v

theorem Memory.read_write_from {lo : Nat} {m : Memory} (h : Memory.wfFrom lo m = true) (x : Nat) (v : Byte) (y : Nat) :
    (m.write x v).read y = if y = x then v else m.read y := by
  induction m generalizing lo with
  | nil =>
    simp only [Memory.write]
    split <;> by_cases hy : y = x <;> simp_all [Memory.read, Memory.unlisted]
  | cons c rest ih =>
    obtain ⟨a, b⟩ := c
    have h' := h
    simp only [Memory.wfFrom, Bool.and_eq_true, decide_eq_true_eq] at h
    obtain ⟨⟨h1, h2⟩, h3⟩ := h
    have hbelow : ∀ z, z < a + 1 → Memory.read rest z = 0 := fun z hz => Memory.read_below h3 hz
    simp only [Memory.write]
    split
    · rename_i hxa
      split
      · rename_i hv
        by_cases hy : y = x
        · subst hy
          have hne : y ≠ a := by omega
          simp [Memory.read, hne, hbelow y (by omega), hv, Memory.unlisted]
        · simp [hy]
      · by_cases hy : y = x <;> simp [Memory.read, hy]
    · split
      · rename_i hxa
        subst hxa
        split
        · rename_i hv
          by_cases hy : y = x
          · subst hy; simp [hbelow y (by omega), hv, Memory.unlisted]
          · simp [Memory.read, hy]
        · by_cases hy : y = x <;> simp [Memory.read, hy]
      · rename_i hxa hxa'
        by_cases hya : y = a
        · subst hya
          have : ¬ y = x := fun hyx => hxa' hyx.symm
          simp [Memory.read, this]
        · simp [Memory.read, hya, ih h3]

/-- Reading after a write: the byte written, and every other address as before. -/
theorem Memory.read_write {m : Memory} (h : m.wf = true) (x : Nat) (v : Byte) (y : Nat) :
    (m.write x v).read y = if y = x then v else m.read y :=
  Memory.read_write_from h x v y

theorem Memory.wf_writeList {m : Memory} (h : m.wf = true) (x : Nat) (bs : List Byte) : (m.writeList x bs).wf = true := by
  induction bs generalizing m x with
  | nil => exact h
  | cons b bs ih => exact ih (Memory.wf_write h x b) (x + 1)

/-- Reading after a run of writes: within the run its byte, elsewhere as before. -/
theorem Memory.read_writeList {m : Memory} (h : m.wf = true) (x : Nat) (bs : List Byte) (y : Nat) :
    (m.writeList x bs).read y = if x ≤ y ∧ y < x + bs.length then bs.getD (y - x) 0 else m.read y := by
  induction bs generalizing m x with
  | nil =>
    have : ¬ (x ≤ y ∧ y < x + ([] : List Byte).length) := by simp
    rw [if_neg this]; rfl
  | cons b bs ih =>
    rw [Memory.writeList, ih (Memory.wf_write h x b) (x + 1), Memory.read_write h]
    by_cases hyx : y = x
    · subst hyx
      have h1 : ¬ (y + 1 ≤ y ∧ y < y + 1 + bs.length) := by omega
      have h2 : y ≤ y ∧ y < y + (b :: bs).length := by simp
      rw [if_neg h1, if_pos rfl, if_pos h2]; simp
    · by_cases hr : x + 1 ≤ y ∧ y < x + 1 + bs.length
      · have h2 : x ≤ y ∧ y < x + (b :: bs).length := by simp only [List.length_cons]; omega
        rw [if_pos hr, if_pos h2]
        have : y - x = (y - (x + 1)) + 1 := by omega
        rw [this, List.getD_cons_succ]
      · have h2 : ¬ (x ≤ y ∧ y < x + (b :: bs).length) := by simp only [List.length_cons]; omega
        rw [if_neg hr, if_neg h2, if_neg hyx]

theorem Memory.wf_writeSlot {m : Memory} (h : m.wf = true) (slot : Nat) (ds : List Byte) : (m.writeSlot slot ds).wf = true :=
  Memory.wf_writeList h _ ds

@[simp] theorem Memory.length_readSlot (m : Memory) (slot width : Nat) : (m.readSlot slot width).length = width := by
  simp [Memory.readSlot]

theorem Memory.getD_readSlot (m : Memory) (slot : Nat) {width k : Nat} (hk : k < width) :
    (m.readSlot slot width).getD k 0 = m.read (digitAddr slot k) := by
  simp [Memory.readSlot, List.getD, hk]

/-- Digits of different slots, or different digits of one slot, have different addresses. -/
theorem digitAddr_eq_iff {a b j k : Nat} (hj : j < slotStride) (hk : k < slotStride) :
    digitAddr a j = digitAddr b k ↔ a = b ∧ j = k := by
  unfold digitAddr slotStride at *; omega

/-- Reading a digit after storing digits of a slot. -/
theorem Memory.read_writeSlot {m : Memory} (h : m.wf = true) (slot : Nat) (ds : List Byte) (a : Nat) :
    (m.writeSlot slot ds).read a =
      if digitAddr slot 0 ≤ a ∧ a < digitAddr slot ds.length then ds.getD (a - digitAddr slot 0) 0 else m.read a := by
  have hlen : digitAddr slot ds.length = digitAddr slot 0 + ds.length := by simp [digitAddr]
  rw [Memory.writeSlot, Memory.read_writeList h, hlen]

/-- A slot reads back the digits stored to it. -/
theorem Memory.readSlot_writeSlot {m : Memory} (h : m.wf = true) (slot : Nat) (ds : List Byte) :
    (m.writeSlot slot ds).readSlot slot ds.length = ds := by
  apply List.ext_getElem (by simp)
  intro k h1 h2
  have hin : digitAddr slot 0 ≤ digitAddr slot k ∧ digitAddr slot k < digitAddr slot ds.length := by
    unfold digitAddr; omega
  simp only [Memory.readSlot, List.getElem_map, List.getElem_range]
  rw [Memory.read_writeSlot h, if_pos hin]
  have : digitAddr slot k - digitAddr slot 0 = k := by unfold digitAddr; omega
  rw [this]; simp [List.getD, h2]

/-- A slot is untouched by a store to another. -/
theorem Memory.readSlot_writeSlot_ne {m : Memory} (h : m.wf = true) {slot other : Nat} (ho : other ≠ slot)
    (ds : List Byte) (hd : ds.length ≤ slotStride) {width : Nat} (hw : width ≤ slotStride) :
    (m.writeSlot slot ds).readSlot other width = m.readSlot other width := by
  unfold Memory.readSlot
  apply List.map_congr_left
  intro k hk
  rw [List.mem_range] at hk
  rw [Memory.read_writeSlot h, if_neg]
  unfold digitAddr slotStride at *
  omega

/-- The storage after reset has the canonical form. -/
theorem reset_memory_wf : State.reset.key.wf = true ∧ State.reset.digits.wf = true := ⟨rfl, rfl⟩

end Sys2Proof.Machine
end

