-- ==== Sys2Proof/Laws/Digits.lean ====
section
/-! SUPPORT. Laws of base-256 numbers. -/

namespace Sys2Proof.Machine

@[simp] theorem valDigits_nil : valDigits [] = 0 := rfl

@[simp] theorem valDigits_cons (d : Byte) (ds : List Byte) : valDigits (d :: ds) = d.toNat + 256 * valDigits ds := rfl

@[simp] theorem length_toDigits (width v : Nat) : (toDigits width v).length = width := by
  induction width generalizing v with
  | zero => rfl
  | succ width ih => simp [toDigits, ih]

/-- A digit buffer of `W` digits holds a value below `256^W`. -/
theorem valDigits_lt (ds : List Byte) : valDigits ds < 256 ^ ds.length := by
  induction ds with
  | nil => simp
  | cons d ds ih =>
    have := d.isLt
    simp only [valDigits_cons, List.length_cons, pow_succ]
    omega

/-- The digits of a value have that value, less what does not fit. -/
theorem valDigits_toDigits (width v : Nat) : valDigits (toDigits width v) = v % 256 ^ width := by
  induction width generalizing v with
  | zero => simp [toDigits, Nat.mod_one]
  | succ width ih =>
    have h : v % 256 ^ (width + 1) = v % 256 + 256 * (v / 256 % 256 ^ width) := by
      rw [pow_succ, Nat.mul_comm, Nat.mod_mul]
    simp [toDigits, ih, h]

/-- The digits of the value of a buffer are the buffer. -/
theorem toDigits_valDigits (ds : List Byte) : toDigits ds.length (valDigits ds) = ds := by
  induction ds with
  | nil => rfl
  | cons d ds ih =>
    have hd := d.isLt
    have h1 : (d.toNat + 256 * valDigits ds) % 256 = d.toNat := by omega
    have h2 : (d.toNat + 256 * valDigits ds) / 256 = valDigits ds := by omega
    simp [toDigits, h1, h2, ih]

/-- Digit `k` of a buffer is `digit` of its value (00_scope.md R11). -/
theorem getD_toDigits (width v k : Nat) (hk : k < width) : (toDigits width v).getD k 0 = digit v k := by
  induction width generalizing v k with
  | zero => omega
  | succ width ih =>
    cases k with
    | zero => simp [toDigits, digit]
    | succ k =>
      simp only [toDigits, List.getD_cons_succ]
      rw [ih _ _ (by omega), digit, digit, Nat.div_div_eq_div_mul, pow_succ, Nat.mul_comm]

/-- The value of a buffer as the sum of its digits by weight (00_scope.md R11). -/
theorem valDigits_eq_sum (ds : List Byte) :
    valDigits ds = ((List.range ds.length).map fun k => (ds.getD k 0).toNat * 256 ^ k).sum := by
  induction ds with
  | nil => rfl
  | cons d ds ih =>
    rw [valDigits_cons, ih, List.length_cons, List.range_succ_eq_map, List.map_cons, List.sum_cons, List.map_map]
    simp only [List.getD_cons_zero, pow_zero, mul_one, ← List.sum_map_mul_left]
    congr 2
    apply List.map_congr_left
    intro k _
    simp [pow_succ]
    ring

@[simp] theorem length_addDigits (os is : List Byte) (c : Nat) : (addDigits os is c).1.length = os.length := by
  induction os generalizing is c with
  | nil => rfl
  | cons o os ih => simp [addDigits, ih]

@[simp] theorem length_addTrunc (os is : List Byte) : (addTrunc os is).out.length = os.length :=
  length_addDigits os is 0

/-- The significant length the adder reports is that of its output (40_big_add.md R100). -/
@[simp] theorem addTrunc_len (os is : List Byte) : (addTrunc os is).len = siglen (valDigits (addTrunc os is).out) := rfl

@[simp] theorem siglen_zero : siglen 0 = 0 := rfl

end Sys2Proof.Machine
end

