-- ==== Sys2Proof/Laws/State.lean ====
section
/-! SUPPORT. What each named update of the state leaves in each field, by rfl: no proof unfolds a record update again. -/

namespace Sys2Proof.Machine

/-! ## scrambleHidden -/

@[simp] theorem State.scrambleHidden_mMax (s : State) : s.scrambleHidden.mMax = s.mMax := rfl
@[simp] theorem State.scrambleHidden_base (s : State) : s.scrambleHidden.base = s.base := rfl
@[simp] theorem State.scrambleHidden_initView (s : State) : s.scrambleHidden.initView = s.initView := rfl
@[simp] theorem State.scrambleHidden_key (s : State) : s.scrambleHidden.key = s.key := rfl
@[simp] theorem State.scrambleHidden_digits (s : State) : s.scrambleHidden.digits = s.digits := rfl
@[simp] theorem State.scrambleHidden_keyLen (s : State) : s.scrambleHidden.keyLen = s.keyLen := rfl
@[simp] theorem State.scrambleHidden_n (s : State) : s.scrambleHidden.n = s.n := rfl
@[simp] theorem State.scrambleHidden_e (s : State) : s.scrambleHidden.e = s.e := rfl
@[simp] theorem State.scrambleHidden_viewLen (s : State) : s.scrambleHidden.viewLen = s.viewLen := rfl
@[simp] theorem State.scrambleHidden_viewCur (s : State) : s.scrambleHidden.viewCur = s.viewCur := rfl
@[simp] theorem State.scrambleHidden_j (s : State) : s.scrambleHidden.j = s.j := rfl
@[simp] theorem State.scrambleHidden_pool (s : State) : s.scrambleHidden.pool = s.pool := rfl
@[simp] theorem State.scrambleHidden_prev (s : State) : s.scrambleHidden.prev = s.prev := rfl
@[simp] theorem State.scrambleHidden_mode (s : State) : s.scrambleHidden.mode = s.mode := rfl
@[simp] theorem State.scrambleHidden_state (s : State) : s.scrambleHidden.state = s.state := rfl
@[simp] theorem State.scrambleHidden_inFlight (s : State) : s.scrambleHidden.inFlight = s.inFlight := rfl
@[simp] theorem State.scrambleHidden_done (s : State) : s.scrambleHidden.done = s.done := rfl
@[simp] theorem State.scrambleHidden_ovr (s : State) : s.scrambleHidden.ovr = s.ovr := rfl
@[simp] theorem State.scrambleHidden_lastOp (s : State) : s.scrambleHidden.lastOp = s.lastOp := rfl
@[simp] theorem State.scrambleHidden_ieDone (s : State) : s.scrambleHidden.ieDone = s.ieDone := rfl
@[simp] theorem State.scrambleHidden_ieFault (s : State) : s.scrambleHidden.ieFault = s.ieFault := rfl
@[simp] theorem State.scrambleHidden_din (s : State) : s.scrambleHidden.din = s.din := rfl
@[simp] theorem State.scrambleHidden_dout (s : State) : s.scrambleHidden.dout = s.dout := rfl
@[simp] theorem State.scrambleHidden_result (s : State) : s.scrambleHidden.result = s.result := rfl
@[simp] theorem State.scrambleHidden_err (s : State) : s.scrambleHidden.err = s.err := rfl
@[simp] theorem State.scrambleHidden_errInfo0 (s : State) : s.scrambleHidden.errInfo0 = s.errInfo0 := rfl
@[simp] theorem State.scrambleHidden_errInfo1 (s : State) : s.scrambleHidden.errInfo1 = s.errInfo1 := rfl
@[simp] theorem State.scrambleHidden_srcMore (s : State) : s.scrambleHidden.srcMore = s.srcMore := rfl
@[simp] theorem State.scrambleHidden_srcNext (s : State) : s.scrambleHidden.srcNext = s.srcNext := rfl
@[simp] theorem State.scrambleHidden_snkWrite (s : State) : s.scrambleHidden.snkWrite = s.snkWrite := rfl
@[simp] theorem State.scrambleHidden_snkFlush (s : State) : s.scrambleHidden.snkFlush = s.snkFlush := rfl
@[simp] theorem State.scrambleHidden_trace (s : State) : s.scrambleHidden.trace = s.trace := rfl
@[simp] theorem State.scrambleHidden_events (s : State) : s.scrambleHidden.events = s.events := rfl
@[simp] theorem State.scrambleHidden_rdata (s : State) : s.scrambleHidden.rdata = s.rdata := rfl

/-! ## complete -/

@[simp] theorem State.complete_mMax (s : State) : s.complete.mMax = s.mMax := rfl
@[simp] theorem State.complete_base (s : State) : s.complete.base = s.base := rfl
@[simp] theorem State.complete_initView (s : State) : s.complete.initView = s.initView := rfl
@[simp] theorem State.complete_key (s : State) : s.complete.key = s.key := rfl
@[simp] theorem State.complete_digits (s : State) : s.complete.digits = s.digits := rfl
@[simp] theorem State.complete_keyLen (s : State) : s.complete.keyLen = s.keyLen := rfl
@[simp] theorem State.complete_n (s : State) : s.complete.n = s.n := rfl
@[simp] theorem State.complete_e (s : State) : s.complete.e = s.e := rfl
@[simp] theorem State.complete_viewLen (s : State) : s.complete.viewLen = s.viewLen := rfl
@[simp] theorem State.complete_viewCur (s : State) : s.complete.viewCur = s.viewCur := rfl
@[simp] theorem State.complete_j (s : State) : s.complete.j = s.j := rfl
@[simp] theorem State.complete_pool (s : State) : s.complete.pool = s.pool := rfl
@[simp] theorem State.complete_prev (s : State) : s.complete.prev = s.prev := rfl
@[simp] theorem State.complete_mode (s : State) : s.complete.mode = s.mode := rfl
@[simp] theorem State.complete_state (s : State) : s.complete.state = s.state := rfl
@[simp] theorem State.complete_inFlight (s : State) : s.complete.inFlight = none := rfl
@[simp] theorem State.complete_done (s : State) : s.complete.done = true := rfl
@[simp] theorem State.complete_ovr (s : State) : s.complete.ovr = s.ovr := rfl
@[simp] theorem State.complete_lastOp (s : State) : s.complete.lastOp = s.lastOp := rfl
@[simp] theorem State.complete_ieDone (s : State) : s.complete.ieDone = s.ieDone := rfl
@[simp] theorem State.complete_ieFault (s : State) : s.complete.ieFault = s.ieFault := rfl
@[simp] theorem State.complete_din (s : State) : s.complete.din = s.din := rfl
@[simp] theorem State.complete_dout (s : State) : s.complete.dout = s.dout := rfl
@[simp] theorem State.complete_result (s : State) : s.complete.result = s.result := rfl
@[simp] theorem State.complete_err (s : State) : s.complete.err = s.err := rfl
@[simp] theorem State.complete_errInfo0 (s : State) : s.complete.errInfo0 = s.errInfo0 := rfl
@[simp] theorem State.complete_errInfo1 (s : State) : s.complete.errInfo1 = s.errInfo1 := rfl
@[simp] theorem State.complete_srcMore (s : State) : s.complete.srcMore = s.srcMore := rfl
@[simp] theorem State.complete_srcNext (s : State) : s.complete.srcNext = s.srcNext := rfl
@[simp] theorem State.complete_snkWrite (s : State) : s.complete.snkWrite = s.snkWrite := rfl
@[simp] theorem State.complete_snkFlush (s : State) : s.complete.snkFlush = s.snkFlush := rfl
@[simp] theorem State.complete_trace (s : State) : s.complete.trace = s.trace := rfl
@[simp] theorem State.complete_events (s : State) : s.complete.events = s.events := rfl
@[simp] theorem State.complete_rdata (s : State) : s.complete.rdata = s.rdata := rfl

/-! ## raise -/

@[simp] theorem State.raise_mMax (s : State) (f : FaultInfo) : (s.raise f).mMax = s.mMax := rfl
@[simp] theorem State.raise_base (s : State) (f : FaultInfo) : (s.raise f).base = s.base := rfl
@[simp] theorem State.raise_initView (s : State) (f : FaultInfo) : (s.raise f).initView = s.initView := rfl
@[simp] theorem State.raise_key (s : State) (f : FaultInfo) : (s.raise f).key = s.key := rfl
@[simp] theorem State.raise_digits (s : State) (f : FaultInfo) : (s.raise f).digits = s.digits := rfl
@[simp] theorem State.raise_keyLen (s : State) (f : FaultInfo) : (s.raise f).keyLen = s.keyLen := rfl
@[simp] theorem State.raise_n (s : State) (f : FaultInfo) : (s.raise f).n = s.n := rfl
@[simp] theorem State.raise_e (s : State) (f : FaultInfo) : (s.raise f).e = s.e := rfl
@[simp] theorem State.raise_viewLen (s : State) (f : FaultInfo) : (s.raise f).viewLen = s.viewLen := rfl
@[simp] theorem State.raise_viewCur (s : State) (f : FaultInfo) : (s.raise f).viewCur = s.viewCur := rfl
@[simp] theorem State.raise_j (s : State) (f : FaultInfo) : (s.raise f).j = s.j := rfl
@[simp] theorem State.raise_pool (s : State) (f : FaultInfo) : (s.raise f).pool = s.pool := rfl
@[simp] theorem State.raise_prev (s : State) (f : FaultInfo) : (s.raise f).prev = s.prev := rfl
@[simp] theorem State.raise_mode (s : State) (f : FaultInfo) : (s.raise f).mode = s.mode := rfl
@[simp] theorem State.raise_state (s : State) (f : FaultInfo) : (s.raise f).state = .fault := rfl
@[simp] theorem State.raise_inFlight (s : State) (f : FaultInfo) : (s.raise f).inFlight = none := rfl
@[simp] theorem State.raise_done (s : State) (f : FaultInfo) : (s.raise f).done = s.done := rfl
@[simp] theorem State.raise_ovr (s : State) (f : FaultInfo) : (s.raise f).ovr = s.ovr := rfl
@[simp] theorem State.raise_lastOp (s : State) (f : FaultInfo) : (s.raise f).lastOp = s.lastOp := rfl
@[simp] theorem State.raise_ieDone (s : State) (f : FaultInfo) : (s.raise f).ieDone = s.ieDone := rfl
@[simp] theorem State.raise_ieFault (s : State) (f : FaultInfo) : (s.raise f).ieFault = s.ieFault := rfl
@[simp] theorem State.raise_din (s : State) (f : FaultInfo) : (s.raise f).din = s.din := rfl
@[simp] theorem State.raise_dout (s : State) (f : FaultInfo) : (s.raise f).dout = s.dout := rfl
@[simp] theorem State.raise_result (s : State) (f : FaultInfo) : (s.raise f).result = s.result := rfl
@[simp] theorem State.raise_err (s : State) (f : FaultInfo) : (s.raise f).err = f.code := rfl
@[simp] theorem State.raise_errInfo0 (s : State) (f : FaultInfo) : (s.raise f).errInfo0 = f.info0 := rfl
@[simp] theorem State.raise_errInfo1 (s : State) (f : FaultInfo) : (s.raise f).errInfo1 = f.info1 := rfl
@[simp] theorem State.raise_srcMore (s : State) (f : FaultInfo) : (s.raise f).srcMore = s.srcMore := rfl
@[simp] theorem State.raise_srcNext (s : State) (f : FaultInfo) : (s.raise f).srcNext = s.srcNext := rfl
@[simp] theorem State.raise_snkWrite (s : State) (f : FaultInfo) : (s.raise f).snkWrite = s.snkWrite := rfl
@[simp] theorem State.raise_snkFlush (s : State) (f : FaultInfo) : (s.raise f).snkFlush = s.snkFlush := rfl
@[simp] theorem State.raise_trace (s : State) (f : FaultInfo) : (s.raise f).trace = s.trace := rfl
@[simp] theorem State.raise_events (s : State) (f : FaultInfo) : (s.raise f).events = s.events := rfl
@[simp] theorem State.raise_rdata (s : State) (f : FaultInfo) : (s.raise f).rdata = s.rdata := rfl

/-! ## accept -/

@[simp] theorem State.accept_mMax (s : State) (w : Word) : (s.accept w).mMax = s.mMax := rfl
@[simp] theorem State.accept_base (s : State) (w : Word) : (s.accept w).base = s.base := rfl
@[simp] theorem State.accept_initView (s : State) (w : Word) : (s.accept w).initView = s.initView := rfl
@[simp] theorem State.accept_key (s : State) (w : Word) : (s.accept w).key = s.key := rfl
@[simp] theorem State.accept_digits (s : State) (w : Word) : (s.accept w).digits = s.digits := rfl
@[simp] theorem State.accept_acc (s : State) (w : Word) : (s.accept w).acc = s.acc := rfl
@[simp] theorem State.accept_scr (s : State) (w : Word) : (s.accept w).scr = s.scr := rfl
@[simp] theorem State.accept_keyLen (s : State) (w : Word) : (s.accept w).keyLen = s.keyLen := rfl
@[simp] theorem State.accept_n (s : State) (w : Word) : (s.accept w).n = s.n := rfl
@[simp] theorem State.accept_e (s : State) (w : Word) : (s.accept w).e = s.e := rfl
@[simp] theorem State.accept_viewLen (s : State) (w : Word) : (s.accept w).viewLen = s.viewLen := rfl
@[simp] theorem State.accept_viewCur (s : State) (w : Word) : (s.accept w).viewCur = s.viewCur := rfl
@[simp] theorem State.accept_j (s : State) (w : Word) : (s.accept w).j = s.j := rfl
@[simp] theorem State.accept_pool (s : State) (w : Word) : (s.accept w).pool = s.pool := rfl
@[simp] theorem State.accept_prev (s : State) (w : Word) : (s.accept w).prev = s.prev := rfl
@[simp] theorem State.accept_mode (s : State) (w : Word) : (s.accept w).mode = s.mode := rfl
@[simp] theorem State.accept_state (s : State) (w : Word) : (s.accept w).state = s.state := rfl
@[simp] theorem State.accept_inFlight (s : State) (w : Word) : (s.accept w).inFlight = some ⟨w, s.din, .top⟩ := rfl
@[simp] theorem State.accept_done (s : State) (w : Word) : (s.accept w).done = false := rfl
@[simp] theorem State.accept_ovr (s : State) (w : Word) : (s.accept w).ovr = s.ovr := rfl
@[simp] theorem State.accept_lastOp (s : State) (w : Word) : (s.accept w).lastOp = opcField w := rfl
@[simp] theorem State.accept_ieDone (s : State) (w : Word) : (s.accept w).ieDone = s.ieDone := rfl
@[simp] theorem State.accept_ieFault (s : State) (w : Word) : (s.accept w).ieFault = s.ieFault := rfl
@[simp] theorem State.accept_din (s : State) (w : Word) : (s.accept w).din = s.din := rfl
@[simp] theorem State.accept_dout (s : State) (w : Word) : (s.accept w).dout = s.dout := rfl
@[simp] theorem State.accept_result (s : State) (w : Word) : (s.accept w).result = s.result := rfl
@[simp] theorem State.accept_err (s : State) (w : Word) : (s.accept w).err = s.err := rfl
@[simp] theorem State.accept_errInfo0 (s : State) (w : Word) : (s.accept w).errInfo0 = s.errInfo0 := rfl
@[simp] theorem State.accept_errInfo1 (s : State) (w : Word) : (s.accept w).errInfo1 = s.errInfo1 := rfl
@[simp] theorem State.accept_srcMore (s : State) (w : Word) : (s.accept w).srcMore = s.srcMore := rfl
@[simp] theorem State.accept_srcNext (s : State) (w : Word) : (s.accept w).srcNext = s.srcNext := rfl
@[simp] theorem State.accept_snkWrite (s : State) (w : Word) : (s.accept w).snkWrite = s.snkWrite := rfl
@[simp] theorem State.accept_snkFlush (s : State) (w : Word) : (s.accept w).snkFlush = s.snkFlush := rfl
@[simp] theorem State.accept_trace (s : State) (w : Word) : (s.accept w).trace = s.trace := rfl
@[simp] theorem State.accept_events (s : State) (w : Word) : (s.accept w).events = s.events := rfl
@[simp] theorem State.accept_rdata (s : State) (w : Word) : (s.accept w).rdata = s.rdata := rfl
@[simp] theorem State.accept_freeCtr (s : State) (w : Word) : (s.accept w).freeCtr = s.freeCtr := rfl

/-! ## setPhase -/

@[simp] theorem State.setPhase_mMax (s : State) (p : Phase) : (s.setPhase p).mMax = s.mMax := rfl
@[simp] theorem State.setPhase_base (s : State) (p : Phase) : (s.setPhase p).base = s.base := rfl
@[simp] theorem State.setPhase_initView (s : State) (p : Phase) : (s.setPhase p).initView = s.initView := rfl
@[simp] theorem State.setPhase_key (s : State) (p : Phase) : (s.setPhase p).key = s.key := rfl
@[simp] theorem State.setPhase_digits (s : State) (p : Phase) : (s.setPhase p).digits = s.digits := rfl
@[simp] theorem State.setPhase_acc (s : State) (p : Phase) : (s.setPhase p).acc = s.acc := rfl
@[simp] theorem State.setPhase_scr (s : State) (p : Phase) : (s.setPhase p).scr = s.scr := rfl
@[simp] theorem State.setPhase_keyLen (s : State) (p : Phase) : (s.setPhase p).keyLen = s.keyLen := rfl
@[simp] theorem State.setPhase_n (s : State) (p : Phase) : (s.setPhase p).n = s.n := rfl
@[simp] theorem State.setPhase_e (s : State) (p : Phase) : (s.setPhase p).e = s.e := rfl
@[simp] theorem State.setPhase_viewLen (s : State) (p : Phase) : (s.setPhase p).viewLen = s.viewLen := rfl
@[simp] theorem State.setPhase_viewCur (s : State) (p : Phase) : (s.setPhase p).viewCur = s.viewCur := rfl
@[simp] theorem State.setPhase_j (s : State) (p : Phase) : (s.setPhase p).j = s.j := rfl
@[simp] theorem State.setPhase_pool (s : State) (p : Phase) : (s.setPhase p).pool = s.pool := rfl
@[simp] theorem State.setPhase_prev (s : State) (p : Phase) : (s.setPhase p).prev = s.prev := rfl
@[simp] theorem State.setPhase_mode (s : State) (p : Phase) : (s.setPhase p).mode = s.mode := rfl
@[simp] theorem State.setPhase_state (s : State) (p : Phase) : (s.setPhase p).state = s.state := rfl
@[simp] theorem State.setPhase_done (s : State) (p : Phase) : (s.setPhase p).done = s.done := rfl
@[simp] theorem State.setPhase_ovr (s : State) (p : Phase) : (s.setPhase p).ovr = s.ovr := rfl
@[simp] theorem State.setPhase_lastOp (s : State) (p : Phase) : (s.setPhase p).lastOp = s.lastOp := rfl
@[simp] theorem State.setPhase_ieDone (s : State) (p : Phase) : (s.setPhase p).ieDone = s.ieDone := rfl
@[simp] theorem State.setPhase_ieFault (s : State) (p : Phase) : (s.setPhase p).ieFault = s.ieFault := rfl
@[simp] theorem State.setPhase_din (s : State) (p : Phase) : (s.setPhase p).din = s.din := rfl
@[simp] theorem State.setPhase_dout (s : State) (p : Phase) : (s.setPhase p).dout = s.dout := rfl
@[simp] theorem State.setPhase_result (s : State) (p : Phase) : (s.setPhase p).result = s.result := rfl
@[simp] theorem State.setPhase_err (s : State) (p : Phase) : (s.setPhase p).err = s.err := rfl
@[simp] theorem State.setPhase_errInfo0 (s : State) (p : Phase) : (s.setPhase p).errInfo0 = s.errInfo0 := rfl
@[simp] theorem State.setPhase_errInfo1 (s : State) (p : Phase) : (s.setPhase p).errInfo1 = s.errInfo1 := rfl
@[simp] theorem State.setPhase_srcMore (s : State) (p : Phase) : (s.setPhase p).srcMore = s.srcMore := rfl
@[simp] theorem State.setPhase_srcNext (s : State) (p : Phase) : (s.setPhase p).srcNext = s.srcNext := rfl
@[simp] theorem State.setPhase_snkWrite (s : State) (p : Phase) : (s.setPhase p).snkWrite = s.snkWrite := rfl
@[simp] theorem State.setPhase_snkFlush (s : State) (p : Phase) : (s.setPhase p).snkFlush = s.snkFlush := rfl
@[simp] theorem State.setPhase_trace (s : State) (p : Phase) : (s.setPhase p).trace = s.trace := rfl
@[simp] theorem State.setPhase_events (s : State) (p : Phase) : (s.setPhase p).events = s.events := rfl
@[simp] theorem State.setPhase_rdata (s : State) (p : Phase) : (s.setPhase p).rdata = s.rdata := rfl
@[simp] theorem State.setPhase_freeCtr (s : State) (p : Phase) : (s.setPhase p).freeCtr = s.freeCtr := rfl

/-! ## setSlot -/

@[simp] theorem State.setSlot_mMax (s : State) (slot : Nat) (ds : List Byte) : (s.setSlot slot ds).mMax = s.mMax := rfl
@[simp] theorem State.setSlot_base (s : State) (slot : Nat) (ds : List Byte) : (s.setSlot slot ds).base = s.base := rfl
@[simp] theorem State.setSlot_initView (s : State) (slot : Nat) (ds : List Byte) : (s.setSlot slot ds).initView = s.initView := rfl
@[simp] theorem State.setSlot_key (s : State) (slot : Nat) (ds : List Byte) : (s.setSlot slot ds).key = s.key := rfl
@[simp] theorem State.setSlot_digits (s : State) (slot : Nat) (ds : List Byte) : (s.setSlot slot ds).digits = s.digits.writeSlot slot ds := rfl
@[simp] theorem State.setSlot_acc (s : State) (slot : Nat) (ds : List Byte) : (s.setSlot slot ds).acc = s.acc := rfl
@[simp] theorem State.setSlot_scr (s : State) (slot : Nat) (ds : List Byte) : (s.setSlot slot ds).scr = s.scr := rfl
@[simp] theorem State.setSlot_keyLen (s : State) (slot : Nat) (ds : List Byte) : (s.setSlot slot ds).keyLen = s.keyLen := rfl
@[simp] theorem State.setSlot_n (s : State) (slot : Nat) (ds : List Byte) : (s.setSlot slot ds).n = s.n := rfl
@[simp] theorem State.setSlot_e (s : State) (slot : Nat) (ds : List Byte) : (s.setSlot slot ds).e = s.e := rfl
@[simp] theorem State.setSlot_viewLen (s : State) (slot : Nat) (ds : List Byte) : (s.setSlot slot ds).viewLen = s.viewLen := rfl
@[simp] theorem State.setSlot_viewCur (s : State) (slot : Nat) (ds : List Byte) : (s.setSlot slot ds).viewCur = s.viewCur := rfl
@[simp] theorem State.setSlot_j (s : State) (slot : Nat) (ds : List Byte) : (s.setSlot slot ds).j = s.j := rfl
@[simp] theorem State.setSlot_pool (s : State) (slot : Nat) (ds : List Byte) : (s.setSlot slot ds).pool = s.pool := rfl
@[simp] theorem State.setSlot_prev (s : State) (slot : Nat) (ds : List Byte) : (s.setSlot slot ds).prev = s.prev := rfl
@[simp] theorem State.setSlot_mode (s : State) (slot : Nat) (ds : List Byte) : (s.setSlot slot ds).mode = s.mode := rfl
@[simp] theorem State.setSlot_state (s : State) (slot : Nat) (ds : List Byte) : (s.setSlot slot ds).state = s.state := rfl
@[simp] theorem State.setSlot_inFlight (s : State) (slot : Nat) (ds : List Byte) : (s.setSlot slot ds).inFlight = s.inFlight := rfl
@[simp] theorem State.setSlot_done (s : State) (slot : Nat) (ds : List Byte) : (s.setSlot slot ds).done = s.done := rfl
@[simp] theorem State.setSlot_ovr (s : State) (slot : Nat) (ds : List Byte) : (s.setSlot slot ds).ovr = s.ovr := rfl
@[simp] theorem State.setSlot_lastOp (s : State) (slot : Nat) (ds : List Byte) : (s.setSlot slot ds).lastOp = s.lastOp := rfl
@[simp] theorem State.setSlot_ieDone (s : State) (slot : Nat) (ds : List Byte) : (s.setSlot slot ds).ieDone = s.ieDone := rfl
@[simp] theorem State.setSlot_ieFault (s : State) (slot : Nat) (ds : List Byte) : (s.setSlot slot ds).ieFault = s.ieFault := rfl
@[simp] theorem State.setSlot_din (s : State) (slot : Nat) (ds : List Byte) : (s.setSlot slot ds).din = s.din := rfl
@[simp] theorem State.setSlot_dout (s : State) (slot : Nat) (ds : List Byte) : (s.setSlot slot ds).dout = s.dout := rfl
@[simp] theorem State.setSlot_result (s : State) (slot : Nat) (ds : List Byte) : (s.setSlot slot ds).result = s.result := rfl
@[simp] theorem State.setSlot_err (s : State) (slot : Nat) (ds : List Byte) : (s.setSlot slot ds).err = s.err := rfl
@[simp] theorem State.setSlot_errInfo0 (s : State) (slot : Nat) (ds : List Byte) : (s.setSlot slot ds).errInfo0 = s.errInfo0 := rfl
@[simp] theorem State.setSlot_errInfo1 (s : State) (slot : Nat) (ds : List Byte) : (s.setSlot slot ds).errInfo1 = s.errInfo1 := rfl
@[simp] theorem State.setSlot_srcMore (s : State) (slot : Nat) (ds : List Byte) : (s.setSlot slot ds).srcMore = s.srcMore := rfl
@[simp] theorem State.setSlot_srcNext (s : State) (slot : Nat) (ds : List Byte) : (s.setSlot slot ds).srcNext = s.srcNext := rfl
@[simp] theorem State.setSlot_snkWrite (s : State) (slot : Nat) (ds : List Byte) : (s.setSlot slot ds).snkWrite = s.snkWrite := rfl
@[simp] theorem State.setSlot_snkFlush (s : State) (slot : Nat) (ds : List Byte) : (s.setSlot slot ds).snkFlush = s.snkFlush := rfl
@[simp] theorem State.setSlot_trace (s : State) (slot : Nat) (ds : List Byte) : (s.setSlot slot ds).trace = s.trace := rfl
@[simp] theorem State.setSlot_events (s : State) (slot : Nat) (ds : List Byte) : (s.setSlot slot ds).events = s.events := rfl
@[simp] theorem State.setSlot_rdata (s : State) (slot : Nat) (ds : List Byte) : (s.setSlot slot ds).rdata = s.rdata := rfl
@[simp] theorem State.setSlot_freeCtr (s : State) (slot : Nat) (ds : List Byte) : (s.setSlot slot ds).freeCtr = s.freeCtr := rfl

/-! ## zeroSlots -/

@[simp] theorem State.zeroSlots_mMax (s : State) : s.zeroSlots.mMax = s.mMax := rfl
@[simp] theorem State.zeroSlots_base (s : State) : s.zeroSlots.base = s.base := rfl
@[simp] theorem State.zeroSlots_initView (s : State) : s.zeroSlots.initView = s.initView := rfl
@[simp] theorem State.zeroSlots_key (s : State) : s.zeroSlots.key = s.key := rfl
@[simp] theorem State.zeroSlots_digits (s : State) : s.zeroSlots.digits = [] := rfl
@[simp] theorem State.zeroSlots_acc (s : State) : s.zeroSlots.acc = s.acc := rfl
@[simp] theorem State.zeroSlots_scr (s : State) : s.zeroSlots.scr = s.scr := rfl
@[simp] theorem State.zeroSlots_keyLen (s : State) : s.zeroSlots.keyLen = s.keyLen := rfl
@[simp] theorem State.zeroSlots_n (s : State) : s.zeroSlots.n = s.n := rfl
@[simp] theorem State.zeroSlots_e (s : State) : s.zeroSlots.e = s.e := rfl
@[simp] theorem State.zeroSlots_viewLen (s : State) : s.zeroSlots.viewLen = s.viewLen := rfl
@[simp] theorem State.zeroSlots_viewCur (s : State) : s.zeroSlots.viewCur = s.viewCur := rfl
@[simp] theorem State.zeroSlots_j (s : State) : s.zeroSlots.j = s.j := rfl
@[simp] theorem State.zeroSlots_pool (s : State) : s.zeroSlots.pool = s.pool := rfl
@[simp] theorem State.zeroSlots_prev (s : State) : s.zeroSlots.prev = s.prev := rfl
@[simp] theorem State.zeroSlots_mode (s : State) : s.zeroSlots.mode = s.mode := rfl
@[simp] theorem State.zeroSlots_state (s : State) : s.zeroSlots.state = s.state := rfl
@[simp] theorem State.zeroSlots_inFlight (s : State) : s.zeroSlots.inFlight = s.inFlight := rfl
@[simp] theorem State.zeroSlots_done (s : State) : s.zeroSlots.done = s.done := rfl
@[simp] theorem State.zeroSlots_ovr (s : State) : s.zeroSlots.ovr = s.ovr := rfl
@[simp] theorem State.zeroSlots_lastOp (s : State) : s.zeroSlots.lastOp = s.lastOp := rfl
@[simp] theorem State.zeroSlots_ieDone (s : State) : s.zeroSlots.ieDone = s.ieDone := rfl
@[simp] theorem State.zeroSlots_ieFault (s : State) : s.zeroSlots.ieFault = s.ieFault := rfl
@[simp] theorem State.zeroSlots_din (s : State) : s.zeroSlots.din = s.din := rfl
@[simp] theorem State.zeroSlots_dout (s : State) : s.zeroSlots.dout = s.dout := rfl
@[simp] theorem State.zeroSlots_result (s : State) : s.zeroSlots.result = s.result := rfl
@[simp] theorem State.zeroSlots_err (s : State) : s.zeroSlots.err = s.err := rfl
@[simp] theorem State.zeroSlots_errInfo0 (s : State) : s.zeroSlots.errInfo0 = s.errInfo0 := rfl
@[simp] theorem State.zeroSlots_errInfo1 (s : State) : s.zeroSlots.errInfo1 = s.errInfo1 := rfl
@[simp] theorem State.zeroSlots_srcMore (s : State) : s.zeroSlots.srcMore = s.srcMore := rfl
@[simp] theorem State.zeroSlots_srcNext (s : State) : s.zeroSlots.srcNext = s.srcNext := rfl
@[simp] theorem State.zeroSlots_snkWrite (s : State) : s.zeroSlots.snkWrite = s.snkWrite := rfl
@[simp] theorem State.zeroSlots_snkFlush (s : State) : s.zeroSlots.snkFlush = s.snkFlush := rfl
@[simp] theorem State.zeroSlots_trace (s : State) : s.zeroSlots.trace = s.trace := rfl
@[simp] theorem State.zeroSlots_events (s : State) : s.zeroSlots.events = s.events := rfl
@[simp] theorem State.zeroSlots_rdata (s : State) : s.zeroSlots.rdata = s.rdata := rfl
@[simp] theorem State.zeroSlots_freeCtr (s : State) : s.zeroSlots.freeCtr = s.freeCtr := rfl

/-! ## startView -/

@[simp] theorem State.startView_mMax (s : State) : s.startView.mMax = s.mMax := rfl
@[simp] theorem State.startView_base (s : State) : s.startView.base = s.base := rfl
@[simp] theorem State.startView_initView (s : State) : s.startView.initView = s.initView := rfl
@[simp] theorem State.startView_key (s : State) : s.startView.key = s.key := rfl
@[simp] theorem State.startView_digits (s : State) : s.startView.digits = s.digits := rfl
@[simp] theorem State.startView_acc (s : State) : s.startView.acc = s.acc := rfl
@[simp] theorem State.startView_scr (s : State) : s.startView.scr = s.scr := rfl
@[simp] theorem State.startView_keyLen (s : State) : s.startView.keyLen = s.keyLen := rfl
@[simp] theorem State.startView_n (s : State) : s.startView.n = 9 := rfl
@[simp] theorem State.startView_e (s : State) : s.startView.e = 9 := rfl
@[simp] theorem State.startView_j (s : State) : s.startView.j = s.j := rfl
@[simp] theorem State.startView_pool (s : State) : s.startView.pool = s.pool := rfl
@[simp] theorem State.startView_prev (s : State) : s.startView.prev = s.prev := rfl
@[simp] theorem State.startView_mode (s : State) : s.startView.mode = s.mode := rfl
@[simp] theorem State.startView_state (s : State) : s.startView.state = s.state := rfl
@[simp] theorem State.startView_inFlight (s : State) : s.startView.inFlight = s.inFlight := rfl
@[simp] theorem State.startView_done (s : State) : s.startView.done = s.done := rfl
@[simp] theorem State.startView_ovr (s : State) : s.startView.ovr = s.ovr := rfl
@[simp] theorem State.startView_lastOp (s : State) : s.startView.lastOp = s.lastOp := rfl
@[simp] theorem State.startView_ieDone (s : State) : s.startView.ieDone = s.ieDone := rfl
@[simp] theorem State.startView_ieFault (s : State) : s.startView.ieFault = s.ieFault := rfl
@[simp] theorem State.startView_din (s : State) : s.startView.din = s.din := rfl
@[simp] theorem State.startView_dout (s : State) : s.startView.dout = s.dout := rfl
@[simp] theorem State.startView_result (s : State) : s.startView.result = s.result := rfl
@[simp] theorem State.startView_err (s : State) : s.startView.err = s.err := rfl
@[simp] theorem State.startView_errInfo0 (s : State) : s.startView.errInfo0 = s.errInfo0 := rfl
@[simp] theorem State.startView_errInfo1 (s : State) : s.startView.errInfo1 = s.errInfo1 := rfl
@[simp] theorem State.startView_srcMore (s : State) : s.startView.srcMore = s.srcMore := rfl
@[simp] theorem State.startView_srcNext (s : State) : s.startView.srcNext = s.srcNext := rfl
@[simp] theorem State.startView_snkWrite (s : State) : s.startView.snkWrite = s.snkWrite := rfl
@[simp] theorem State.startView_snkFlush (s : State) : s.startView.snkFlush = s.snkFlush := rfl
@[simp] theorem State.startView_trace (s : State) : s.startView.trace = s.trace := rfl
@[simp] theorem State.startView_events (s : State) : s.startView.events = s.events := rfl
@[simp] theorem State.startView_rdata (s : State) : s.startView.rdata = s.rdata := rfl
@[simp] theorem State.startView_freeCtr (s : State) : s.startView.freeCtr = s.freeCtr := rfl

/-! ## startEngine -/

@[simp] theorem State.startEngine_mMax (s : State) (mode : Mode) : (s.startEngine mode).mMax = s.mMax := rfl
@[simp] theorem State.startEngine_base (s : State) (mode : Mode) : (s.startEngine mode).base = s.base := rfl
@[simp] theorem State.startEngine_initView (s : State) (mode : Mode) : (s.startEngine mode).initView = s.initView := rfl
@[simp] theorem State.startEngine_key (s : State) (mode : Mode) : (s.startEngine mode).key = s.key := rfl
@[simp] theorem State.startEngine_digits (s : State) (mode : Mode) : (s.startEngine mode).digits = s.digits := rfl
@[simp] theorem State.startEngine_acc (s : State) (mode : Mode) : (s.startEngine mode).acc = s.acc := rfl
@[simp] theorem State.startEngine_scr (s : State) (mode : Mode) : (s.startEngine mode).scr = s.scr := rfl
@[simp] theorem State.startEngine_keyLen (s : State) (mode : Mode) : (s.startEngine mode).keyLen = s.keyLen := rfl
@[simp] theorem State.startEngine_n (s : State) (mode : Mode) : (s.startEngine mode).n = s.n := rfl
@[simp] theorem State.startEngine_e (s : State) (mode : Mode) : (s.startEngine mode).e = s.e := rfl
@[simp] theorem State.startEngine_viewLen (s : State) (mode : Mode) : (s.startEngine mode).viewLen = s.viewLen := rfl
@[simp] theorem State.startEngine_viewCur (s : State) (mode : Mode) : (s.startEngine mode).viewCur = s.viewCur := rfl
@[simp] theorem State.startEngine_j (s : State) (mode : Mode) : (s.startEngine mode).j = 0 := rfl
@[simp] theorem State.startEngine_pool (s : State) (mode : Mode) : (s.startEngine mode).pool = 0 := rfl
@[simp] theorem State.startEngine_prev (s : State) (mode : Mode) : (s.startEngine mode).prev = 0 := rfl
@[simp] theorem State.startEngine_mode (s : State) (mode : Mode) : (s.startEngine mode).mode = mode := rfl
@[simp] theorem State.startEngine_state (s : State) (mode : Mode) : (s.startEngine mode).state = .ready := rfl
@[simp] theorem State.startEngine_inFlight (s : State) (mode : Mode) : (s.startEngine mode).inFlight = s.inFlight := rfl
@[simp] theorem State.startEngine_done (s : State) (mode : Mode) : (s.startEngine mode).done = s.done := rfl
@[simp] theorem State.startEngine_ovr (s : State) (mode : Mode) : (s.startEngine mode).ovr = s.ovr := rfl
@[simp] theorem State.startEngine_lastOp (s : State) (mode : Mode) : (s.startEngine mode).lastOp = s.lastOp := rfl
@[simp] theorem State.startEngine_ieDone (s : State) (mode : Mode) : (s.startEngine mode).ieDone = s.ieDone := rfl
@[simp] theorem State.startEngine_ieFault (s : State) (mode : Mode) : (s.startEngine mode).ieFault = s.ieFault := rfl
@[simp] theorem State.startEngine_din (s : State) (mode : Mode) : (s.startEngine mode).din = s.din := rfl
@[simp] theorem State.startEngine_dout (s : State) (mode : Mode) : (s.startEngine mode).dout = 0 := rfl
@[simp] theorem State.startEngine_result (s : State) (mode : Mode) : (s.startEngine mode).result = s.result := rfl
@[simp] theorem State.startEngine_err (s : State) (mode : Mode) : (s.startEngine mode).err = s.err := rfl
@[simp] theorem State.startEngine_errInfo0 (s : State) (mode : Mode) : (s.startEngine mode).errInfo0 = s.errInfo0 := rfl
@[simp] theorem State.startEngine_errInfo1 (s : State) (mode : Mode) : (s.startEngine mode).errInfo1 = s.errInfo1 := rfl
@[simp] theorem State.startEngine_srcMore (s : State) (mode : Mode) : (s.startEngine mode).srcMore = s.srcMore := rfl
@[simp] theorem State.startEngine_srcNext (s : State) (mode : Mode) : (s.startEngine mode).srcNext = s.srcNext := rfl
@[simp] theorem State.startEngine_snkWrite (s : State) (mode : Mode) : (s.startEngine mode).snkWrite = s.snkWrite := rfl
@[simp] theorem State.startEngine_snkFlush (s : State) (mode : Mode) : (s.startEngine mode).snkFlush = s.snkFlush := rfl
@[simp] theorem State.startEngine_trace (s : State) (mode : Mode) : (s.startEngine mode).trace = s.trace := rfl
@[simp] theorem State.startEngine_events (s : State) (mode : Mode) : (s.startEngine mode).events = s.events := rfl
@[simp] theorem State.startEngine_rdata (s : State) (mode : Mode) : (s.startEngine mode).rdata = s.rdata := rfl
@[simp] theorem State.startEngine_freeCtr (s : State) (mode : Mode) : (s.startEngine mode).freeCtr = s.freeCtr := rfl

/-! ## advanceTerm -/

@[simp] theorem State.advanceTerm_mMax (s : State) : s.advanceTerm.mMax = s.mMax := rfl
@[simp] theorem State.advanceTerm_base (s : State) : s.advanceTerm.base = s.base := rfl
@[simp] theorem State.advanceTerm_initView (s : State) : s.advanceTerm.initView = s.initView := rfl
@[simp] theorem State.advanceTerm_key (s : State) : s.advanceTerm.key = s.key := rfl
@[simp] theorem State.advanceTerm_acc (s : State) : s.advanceTerm.acc = s.acc := rfl
@[simp] theorem State.advanceTerm_scr (s : State) : s.advanceTerm.scr = s.scr := rfl
@[simp] theorem State.advanceTerm_keyLen (s : State) : s.advanceTerm.keyLen = s.keyLen := rfl
@[simp] theorem State.advanceTerm_n (s : State) : s.advanceTerm.n = s.n + 1 := rfl
@[simp] theorem State.advanceTerm_e (s : State) : s.advanceTerm.e = s.e + 1 := rfl
@[simp] theorem State.advanceTerm_viewLen (s : State) : s.advanceTerm.viewLen = s.viewLen := rfl
@[simp] theorem State.advanceTerm_viewCur (s : State) : s.advanceTerm.viewCur = s.viewCur := rfl
@[simp] theorem State.advanceTerm_j (s : State) : s.advanceTerm.j = s.j := rfl
@[simp] theorem State.advanceTerm_pool (s : State) : s.advanceTerm.pool = s.pool := rfl
@[simp] theorem State.advanceTerm_prev (s : State) : s.advanceTerm.prev = s.prev := rfl
@[simp] theorem State.advanceTerm_mode (s : State) : s.advanceTerm.mode = s.mode := rfl
@[simp] theorem State.advanceTerm_state (s : State) : s.advanceTerm.state = s.state := rfl
@[simp] theorem State.advanceTerm_inFlight (s : State) : s.advanceTerm.inFlight = s.inFlight := rfl
@[simp] theorem State.advanceTerm_done (s : State) : s.advanceTerm.done = s.done := rfl
@[simp] theorem State.advanceTerm_ovr (s : State) : s.advanceTerm.ovr = s.ovr := rfl
@[simp] theorem State.advanceTerm_lastOp (s : State) : s.advanceTerm.lastOp = s.lastOp := rfl
@[simp] theorem State.advanceTerm_ieDone (s : State) : s.advanceTerm.ieDone = s.ieDone := rfl
@[simp] theorem State.advanceTerm_ieFault (s : State) : s.advanceTerm.ieFault = s.ieFault := rfl
@[simp] theorem State.advanceTerm_din (s : State) : s.advanceTerm.din = s.din := rfl
@[simp] theorem State.advanceTerm_dout (s : State) : s.advanceTerm.dout = s.dout := rfl
@[simp] theorem State.advanceTerm_result (s : State) : s.advanceTerm.result = s.result := rfl
@[simp] theorem State.advanceTerm_err (s : State) : s.advanceTerm.err = s.err := rfl
@[simp] theorem State.advanceTerm_errInfo0 (s : State) : s.advanceTerm.errInfo0 = s.errInfo0 := rfl
@[simp] theorem State.advanceTerm_errInfo1 (s : State) : s.advanceTerm.errInfo1 = s.errInfo1 := rfl
@[simp] theorem State.advanceTerm_srcMore (s : State) : s.advanceTerm.srcMore = s.srcMore := rfl
@[simp] theorem State.advanceTerm_srcNext (s : State) : s.advanceTerm.srcNext = s.srcNext := rfl
@[simp] theorem State.advanceTerm_snkWrite (s : State) : s.advanceTerm.snkWrite = s.snkWrite := rfl
@[simp] theorem State.advanceTerm_snkFlush (s : State) : s.advanceTerm.snkFlush = s.snkFlush := rfl
@[simp] theorem State.advanceTerm_trace (s : State) : s.advanceTerm.trace = s.trace := rfl
@[simp] theorem State.advanceTerm_events (s : State) : s.advanceTerm.events = s.events := rfl
@[simp] theorem State.advanceTerm_rdata (s : State) : s.advanceTerm.rdata = s.rdata := rfl
@[simp] theorem State.advanceTerm_freeCtr (s : State) : s.advanceTerm.freeCtr = s.freeCtr := rfl

/-! ## installView -/

@[simp] theorem State.installView_mMax (s : State) : s.installView.mMax = s.mMax := rfl
@[simp] theorem State.installView_base (s : State) : s.installView.base = s.base := rfl
@[simp] theorem State.installView_initView (s : State) : s.installView.initView = s.initView := rfl
@[simp] theorem State.installView_key (s : State) : s.installView.key = s.key := rfl
@[simp] theorem State.installView_digits (s : State) : s.installView.digits = s.digits := rfl
@[simp] theorem State.installView_acc (s : State) : s.installView.acc = s.acc := rfl
@[simp] theorem State.installView_scr (s : State) : s.installView.scr = s.scr := rfl
@[simp] theorem State.installView_keyLen (s : State) : s.installView.keyLen = s.keyLen := rfl
@[simp] theorem State.installView_n (s : State) : s.installView.n = s.n := rfl
@[simp] theorem State.installView_e (s : State) : s.installView.e = s.e := rfl
@[simp] theorem State.installView_viewLen (s : State) : s.installView.viewLen = BitVec.ofNat 16 s.newestUsable := rfl
@[simp] theorem State.installView_viewCur (s : State) : s.installView.viewCur = 0 := rfl
@[simp] theorem State.installView_j (s : State) : s.installView.j = 0 := rfl
@[simp] theorem State.installView_pool (s : State) : s.installView.pool = s.pool := rfl
@[simp] theorem State.installView_prev (s : State) : s.installView.prev = s.prev := rfl
@[simp] theorem State.installView_mode (s : State) : s.installView.mode = s.mode := rfl
@[simp] theorem State.installView_state (s : State) : s.installView.state = s.state := rfl
@[simp] theorem State.installView_inFlight (s : State) : s.installView.inFlight = s.inFlight := rfl
@[simp] theorem State.installView_done (s : State) : s.installView.done = s.done := rfl
@[simp] theorem State.installView_ovr (s : State) : s.installView.ovr = s.ovr := rfl
@[simp] theorem State.installView_lastOp (s : State) : s.installView.lastOp = s.lastOp := rfl
@[simp] theorem State.installView_ieDone (s : State) : s.installView.ieDone = s.ieDone := rfl
@[simp] theorem State.installView_ieFault (s : State) : s.installView.ieFault = s.ieFault := rfl
@[simp] theorem State.installView_din (s : State) : s.installView.din = s.din := rfl
@[simp] theorem State.installView_dout (s : State) : s.installView.dout = s.dout := rfl
@[simp] theorem State.installView_result (s : State) : s.installView.result = s.result := rfl
@[simp] theorem State.installView_err (s : State) : s.installView.err = s.err := rfl
@[simp] theorem State.installView_errInfo0 (s : State) : s.installView.errInfo0 = s.errInfo0 := rfl
@[simp] theorem State.installView_errInfo1 (s : State) : s.installView.errInfo1 = s.errInfo1 := rfl
@[simp] theorem State.installView_srcMore (s : State) : s.installView.srcMore = s.srcMore := rfl
@[simp] theorem State.installView_srcNext (s : State) : s.installView.srcNext = s.srcNext := rfl
@[simp] theorem State.installView_snkWrite (s : State) : s.installView.snkWrite = s.snkWrite := rfl
@[simp] theorem State.installView_snkFlush (s : State) : s.installView.snkFlush = s.snkFlush := rfl
@[simp] theorem State.installView_trace (s : State) : s.installView.trace = s.trace := rfl
@[simp] theorem State.installView_events (s : State) : s.installView.events = s.events := rfl
@[simp] theorem State.installView_rdata (s : State) : s.installView.rdata = s.rdata := rfl
@[simp] theorem State.installView_freeCtr (s : State) : s.installView.freeCtr = s.freeCtr := rfl

/-! ## resetBlock -/

@[simp] theorem State.resetBlock_mMax (s : State) : s.resetBlock.mMax = s.mMax := rfl
@[simp] theorem State.resetBlock_base (s : State) : s.resetBlock.base = s.base := rfl
@[simp] theorem State.resetBlock_initView (s : State) : s.resetBlock.initView = s.initView := rfl
@[simp] theorem State.resetBlock_key (s : State) : s.resetBlock.key = [] := rfl
@[simp] theorem State.resetBlock_digits (s : State) : s.resetBlock.digits = [] := rfl
@[simp] theorem State.resetBlock_keyLen (s : State) : s.resetBlock.keyLen = 0 := rfl
@[simp] theorem State.resetBlock_state (s : State) : s.resetBlock.state = .idle := rfl
@[simp] theorem State.resetBlock_inFlight (s : State) : s.resetBlock.inFlight = none := rfl
@[simp] theorem State.resetBlock_done (s : State) : s.resetBlock.done = false := rfl
@[simp] theorem State.resetBlock_err (s : State) : s.resetBlock.err = .none := rfl
@[simp] theorem State.resetBlock_trace (s : State) : s.resetBlock.trace = s.trace := rfl
@[simp] theorem State.resetBlock_events (s : State) : s.resetBlock.events = s.events := rfl
@[simp] theorem State.resetBlock_rdata (s : State) : s.resetBlock.rdata = s.rdata := rfl

end Sys2Proof.Machine
end

