-- ==== Sys2Proof/Laws/Ops.lean ====
section
/-! SUPPORT. What each shared operation can do, said once: "if it answers this, then one of these cases holds". -/

namespace Sys2Proof.Machine

open Host (Outcome)

/-! ## The checks before a command's own step -/

/-- A command always has a next state. -/
theorem checked_next (s : State) (i : Instr) (own : State → State) : ∃ t, s.checked i own = .next t := by
  unfold State.checked
  split
  · exact ⟨_, rfl⟩
  · split
    · split <;> exact ⟨_, rfl⟩
    · exact ⟨_, rfl⟩

/-- In FAULT nothing; else ILLEGAL_STATE, else ILLEGAL_OPERAND, else the command's own step. -/
theorem checked_cases {s t : State} {i : Instr} {own : State → State} (h : s.checked i own = .next t) :
    (s.state = .fault ∧ t = s) ∨
      (s.state ≠ .fault ∧ legalIn i s.state = false ∧ t = s.raise (illegalStateFault i s)) ∨
      (s.state ≠ .fault ∧ legalIn i s.state = true ∧ operandsInRange s.wT i = false ∧
        t = s.raise (illegalOperandFault i s)) ∨
      (s.state ≠ .fault ∧ legalIn i s.state = true ∧ operandsInRange s.wT i = true ∧ t = own s) := by
  unfold State.checked at h
  split at h
  · rename_i hf; cases h; exact .inl ⟨hf, rfl⟩
  · rename_i hf
    have hf' : s.state ≠ .fault := fun e => hf e
    split at h
    · rename_i hl
      split at h
      · rename_i ho; cases h; exact .inr (.inr (.inr ⟨hf', hl, ho, rfl⟩))
      · rename_i ho; cases h; exact .inr (.inr (.inl ⟨hf', hl, by simpa using ho, rfl⟩))
    · rename_i hl; cases h; exact .inr (.inl ⟨hf', by simpa using hl, rfl⟩)

/-- Where the checks pass, a command is its own step. -/
theorem checked_own {s : State} {i : Instr} (own : State → State) (hf : s.state ≠ .fault) (hl : legalIn i s.state = true)
    (ho : operandsInRange s.wT i = true) : s.checked i own = .next (own s) := by
  unfold State.checked
  split
  · exact absurd ‹_› hf
  · rw [if_pos hl, if_pos ho]

/-- In FAULT no command runs. -/
theorem checked_fault {s : State} {i : Instr} (own : State → State) (hf : s.state = .fault) :
    s.checked i own = .next s := by
  unfold State.checked; rw [hf]

/-- The own step of each command: what it does once the checks have passed. -/
def ownStep : Instr → State → State
  | .nop => State.complete
  | .keyClear => keyClearStep
  | .keyPush b => keyPushStep b
  | .openEnc => openStep .encrypt
  | .openDec => openStep .decrypt
  | .close => closeStep
  | .xform => xformStep
  | .run => runStep
  | .chainNext => chainNextStep
  | .bigAdd dst src len => bigAddStep dst src len
  | .sensLoad src => sensLoadStep src
  | .sensAdd src => sensAddStep src
  | .sensSqfold => sensSqfoldStep
  | .sensExtract dst => sensExtractStep dst
  | .drd slot k => drdStep slot k
  | .dwr slot k => dwrStep slot k

/-- Every command is the checks and then its own step. -/
theorem exec_eq_checked (i : Instr) (s : State) : exec i s = s.checked i (ownStep i) := by
  cases i <;> rfl

/-- Every command has a next state from every state: the model stops on none. -/
theorem exec_next (i : Instr) (s : State) : ∃ t, exec i s = .next t := by
  rw [exec_eq_checked]; exact checked_next s i _

/-! ## The core's step -/

/-- The core idles, runs the decoded command, or raises ILLEGAL_CMD. -/
theorem coreStep_cases (s : State) :
    (s.inFlight = none ∧ coreStep s = .next s) ∨
      (∃ f i, s.inFlight = some f ∧ decode f.word = .ok i ∧ coreStep s = exec i s) ∨
      (∃ f e, s.inFlight = some f ∧ decode f.word = .error e ∧
        coreStep s = .next (if s.state = .fault then s else s.raise (illegalCmdFault f.word))) := by
  unfold coreStep
  cases hf : s.inFlight with
  | none => exact .inl ⟨rfl, rfl⟩
  | some f =>
    cases hd : decode f.word with
    | ok i => exact .inr (.inl ⟨f, i, rfl, hd, by simp [hd]⟩)
    | error e => exact .inr (.inr ⟨f, e, rfl, hd, by by_cases h : s.state = .fault <;> simp [hd, h]⟩)

/-! ## Sensitivity -/

/-- `sens_load` faults on a value of more than `W_S` digits, else stores it. -/
theorem loadSens_cases (s : State) (v : Nat) :
    (s.wS < siglen v ∧ s.loadSens v = .error (sensOverflow s v)) ∨
      (siglen v ≤ s.wS ∧ s.loadSens v = .ok (s.setSens v)) := by
  unfold State.loadSens
  by_cases h : s.wS < siglen v
  · exact .inl ⟨h, if_pos h⟩
  · exact .inr ⟨by omega, if_neg h⟩

/-- `sens_add` faults on an exact sum of more than `W_S` digits, else stores the truncating sum. -/
theorem addSens_cases (s : State) (slot : Nat) :
    (256 ^ s.wS ≤ s.sensVal + s.slotVal slot ∧
        s.addSens slot = .error (sensOverflow s (s.sensVal + s.slotVal slot))) ∨
      (s.sensVal + s.slotVal slot < 256 ^ s.wS ∧
        s.addSens slot =
          .ok (s.setSlot Config.sensSlot (addTrunc (s.slotDigits Config.sensSlot) (s.slotDigits slot)).out)) := by
  unfold State.addSens
  by_cases h : 256 ^ s.wS ≤ s.sensVal + s.slotVal slot
  · exact .inl ⟨h, if_pos h⟩
  · exact .inr ⟨by omega, if_neg h⟩

/-- A seeding round that does not fault only stores digits. -/
theorem seedRound_ok {s t : State} {i : Nat} (h : s.seedRound i = .ok t) :
    ∃ u, s.addSens (i - 2) = .ok u ∧ t = (u.setSens (sqfold u.sensVal)).extractSens i := by
  unfold State.seedRound at h
  split at h
  · cases h
  · rename_i u hu; exact ⟨u, hu, (Except.ok.inj h).symm⟩

/-! ## The chain and the byte step -/

/-- A round of `next()` stores the new term; it installs a view exactly when the term has a usable suffix. -/
theorem fetchRound_cases (s : State) :
    (s.advanceTerm.newestUsable = 0 ∧ s.fetchRound = s.advanceTerm) ∨
      (s.advanceTerm.newestUsable ≠ 0 ∧ s.fetchRound = s.advanceTerm.installView) := by
  unfold State.fetchRound
  by_cases h : s.advanceTerm.newestUsable = 0
  · exact .inl ⟨h, if_pos h⟩
  · exact .inr ⟨h, if_neg h⟩

/-- The byte step overflows the pool, or commits J, VIEW_CUR, POOL and PREV together. -/
theorem byteStep_cases (s : State) (xin : Byte) :
    (2 ^ Config.poolBits - 1 < s.drainedPool + (transformByte s.mode xin.toNat s.stepKey).quot ∧
        s.byteStep xin = .error ⟨.poolOverflow, 0, 0⟩) ∨
      (s.drainedPool + (transformByte s.mode xin.toNat s.stepKey).quot ≤ 2 ^ Config.poolBits - 1 ∧
        s.byteStep xin =
          .ok
            ( { s with
                j := BitVec.ofNat 16 s.stepIndex
                viewCur := s.viewCur + 1
                pool := BitVec.ofNat Config.poolBits (s.drainedPool + (transformByte s.mode xin.toNat s.stepKey).quot)
                prev := BitVec.ofNat 8 (transformByte s.mode xin.toNat s.stepKey).plain },
              BitVec.ofNat 8 (transformByte s.mode xin.toNat s.stepKey).out )) := by
  by_cases h : 2 ^ Config.poolBits - 1 < s.drainedPool + (transformByte s.mode xin.toNat s.stepKey).quot
  · exact .inl ⟨h, if_pos h⟩
  · exact .inr ⟨Nat.le_of_not_lt h, if_neg h⟩

/-! ## Ports -/

theorem srcHasMore_cases (s : State) :
    (s.srcMore = [] ∧ s.srcHasMore = none) ∨
      ∃ a rest, s.srcMore = a :: rest ∧ s.srcHasMore = some (a, { s with srcMore := rest, trace := .hasMore a :: s.trace }) := by
  unfold State.srcHasMore
  cases h : s.srcMore with
  | nil => exact .inl ⟨rfl, rfl⟩
  | cons a rest => exact .inr ⟨a, rest, rfl, rfl⟩

theorem srcTake_cases (s : State) :
    (s.srcNext = [] ∧ s.srcTake = none) ∨
      ∃ a rest, s.srcNext = a :: rest ∧ s.srcTake = some (a, { s with srcNext := rest, trace := .next a :: s.trace }) := by
  unfold State.srcTake
  cases h : s.srcNext with
  | nil => exact .inl ⟨rfl, rfl⟩
  | cons a rest => exact .inr ⟨a, rest, rfl, rfl⟩

theorem snkPut_cases (s : State) (b : Byte) :
    (s.snkWrite = [] ∧ s.snkPut b = none) ∨
      ∃ a rest, s.snkWrite = a :: rest ∧ s.snkPut b = some (a, { s with snkWrite := rest, trace := .write b a :: s.trace }) := by
  unfold State.snkPut
  cases h : s.snkWrite with
  | nil => exact .inl ⟨rfl, rfl⟩
  | cons a rest => exact .inr ⟨a, rest, rfl, rfl⟩

theorem snkSync_cases (s : State) :
    (s.snkFlush = [] ∧ s.snkSync = none) ∨
      ∃ a rest, s.snkFlush = a :: rest ∧ s.snkSync = some (a, { s with snkFlush := rest, trace := .flush a :: s.trace }) := by
  unfold State.snkSync
  cases h : s.snkFlush with
  | nil => exact .inl ⟨rfl, rfl⟩
  | cons a rest => exact .inr ⟨a, rest, rfl, rfl⟩

/-! ## The register window -/

/-- An access has an offset exactly when it is a 32-bit access at a word-aligned offset of the window. -/
theorem windowOffset_next_iff {base width addr off : Nat} :
    windowOffset base width addr = .next off ↔
      base ≤ addr ∧ addr < base + Config.windowBytes ∧ width = 4 ∧ (addr - base) % 4 = 0 ∧ off = addr - base := by
  unfold windowOffset
  split
  · rename_i h; constructor
    · intro h'; cases h'
    · intro h'; omega
  · rename_i h
    split
    · rename_i h2; constructor
      · intro h'; cases h'
      · intro h'; omega
    · rename_i h2
      constructor
      · intro h'; cases h'; omega
      · intro h'; rw [h'.2.2.2.2]

/-- A host write resets, sets the enables, clears status bits, delivers a command, sets DIN, or is ignored. -/
theorem hostWrite_cases (s : State) (off : Nat) (v : Word) :
    (off = 0x08 ∧ s.hostWrite off v = s.writeCtrl v) ∨ (off = 0x0C ∧ s.hostWrite off v = s.clearStatus v) ∨
      (off = 0x10 ∧ s.hostWrite off v = s.deliverCommand v) ∨
      (off = 0x14 ∧ s.hostWrite off v = { s with din := v.extractLsb' 0 8 }) ∨
      ((off ≠ 0x08 ∧ off ≠ 0x0C ∧ off ≠ 0x10 ∧ off ≠ 0x14) ∧ s.hostWrite off v = s) := by
  unfold State.hostWrite
  split <;> simp_all

/-- A delivered command is ignored in FAULT, dropped while BUSY, else accepted. -/
theorem deliverCommand_cases (s : State) (w : Word) :
    (s.state = .fault ∧ s.deliverCommand w = s) ∨
      (s.state ≠ .fault ∧ s.busy = true ∧ s.deliverCommand w = { s with ovr := true }) ∨
      (s.state ≠ .fault ∧ s.busy = false ∧ s.deliverCommand w = s.accept w) := by
  unfold State.deliverCommand
  split
  · exact .inl ⟨‹_›, rfl⟩
  · rename_i h
    by_cases hb : s.busy = true
    · exact .inr (.inl ⟨fun e => h e, hb, if_pos hb⟩)
    · exact .inr (.inr ⟨fun e => h e, by simpa using hb, if_neg hb⟩)

end Sys2Proof.Machine
end

