-- ==== Sys2Proof/Laws/Frames.lean ====
section
/-! SUPPORT. What no command's own step changes, said once per operation and then for all commands. -/

namespace Sys2Proof.Machine

/-- The part of the state that belongs to the host, the platform and command acceptance: no own step writes it. -/
structure HostSideSame (s t : State) : Prop where
  mMax : t.mMax = s.mMax
  base : t.base = s.base
  initView : t.initView = s.initView
  ovr : t.ovr = s.ovr
  lastOp : t.lastOp = s.lastOp
  ieDone : t.ieDone = s.ieDone
  ieFault : t.ieFault = s.ieFault
  din : t.din = s.din
  events : t.events = s.events
  rdata : t.rdata = s.rdata

theorem HostSideSame.refl (s : State) : HostSideSame s s := ⟨rfl, rfl, rfl, rfl, rfl, rfl, rfl, rfl, rfl, rfl⟩

theorem HostSideSame.trans {s t u : State} (h : HostSideSame s t) (k : HostSideSame t u) : HostSideSame s u :=
  ⟨k.mMax.trans h.mMax, k.base.trans h.base, k.initView.trans h.initView,
    k.ovr.trans h.ovr, k.lastOp.trans h.lastOp, k.ieDone.trans h.ieDone,
    k.ieFault.trans h.ieFault, k.din.trans h.din, k.events.trans h.events, k.rdata.trans h.rdata⟩

theorem hostSide_complete (s : State) : HostSideSame s s.complete := ⟨rfl, rfl, rfl, rfl, rfl, rfl, rfl, rfl, rfl, rfl⟩

theorem hostSide_raise (s : State) (f : FaultInfo) : HostSideSame s (s.raise f) :=
  ⟨rfl, rfl, rfl, rfl, rfl, rfl, rfl, rfl, rfl, rfl⟩

/-! ## Seeding only stores digits -/

/-- Only the digit space differs. -/
def OnlyDigits (s t : State) : Prop := t = { s with digits := t.digits }

theorem OnlyDigits.refl (s : State) : OnlyDigits s s := rfl

theorem OnlyDigits.trans {s t u : State} (h : OnlyDigits s t) (k : OnlyDigits t u) : OnlyDigits s u := by
  unfold OnlyDigits at *
  rw [k, h]

theorem onlyDigits_setSlot (s : State) (slot : Nat) (ds : List Byte) : OnlyDigits s (s.setSlot slot ds) := rfl

theorem onlyDigits_setSens (s : State) (v : Nat) : OnlyDigits s (s.setSens v) := rfl

theorem onlyDigits_extractSens (s : State) (slot : Nat) : OnlyDigits s (s.extractSens slot) := rfl

theorem onlyDigits_zeroSlots (s : State) : OnlyDigits s s.zeroSlots := rfl

theorem onlyDigits_addSens {s t : State} {slot : Nat} (h : s.addSens slot = .ok t) : OnlyDigits s t := by
  rcases addSens_cases s slot with ⟨_, h'⟩ | ⟨_, h'⟩ <;> rw [h'] at h <;> cases h
  exact onlyDigits_setSlot _ _ _

theorem onlyDigits_loadSens {s t : State} {v : Nat} (h : s.loadSens v = .ok t) : OnlyDigits s t := by
  rcases loadSens_cases s v with ⟨_, h'⟩ | ⟨_, h'⟩ <;> rw [h'] at h <;> cases h
  exact onlyDigits_setSens _ _

theorem onlyDigits_seedRound {s t : State} {i : Nat} (h : s.seedRound i = .ok t) : OnlyDigits s t := by
  obtain ⟨u, hu, rfl⟩ := seedRound_ok h
  exact ((onlyDigits_addSens hu).trans (onlyDigits_setSens _ _)).trans (onlyDigits_extractSens _ _)

theorem onlyDigits_seedRounds (rounds i : Nat) (s : State) : OnlyDigits s (seedRounds rounds i s).1 := by
  induction rounds generalizing i s with
  | zero => exact .refl s
  | succ rounds ih =>
    rw [seedRounds]
    split
    · exact .refl s
    · rename_i t ht; exact (onlyDigits_seedRound ht).trans (ih (i + 1) t)

theorem onlyDigits_seed (s : State) : OnlyDigits s s.seed.1 := by
  unfold State.seed
  simp only
  split
  · exact onlyDigits_setSlot _ _ _
  · rename_i t ht
    exact (((onlyDigits_setSlot _ _ _).trans (onlyDigits_loadSens ht)).trans
      ((onlyDigits_setSens _ _).trans (onlyDigits_extractSens _ _))).trans (onlyDigits_seedRounds _ _ _)

theorem OnlyDigits.hostSide {s t : State} (h : OnlyDigits s t) : HostSideSame s t := by
  unfold OnlyDigits at h; rw [h]; exact ⟨rfl, rfl, rfl, rfl, rfl, rfl, rfl, rfl, rfl, rfl⟩

/-- Opening: INVALID_KEY, or the fault met while seeding over stored digits, or the engine started over stored digits. -/
theorem openStep_cases (mode : Mode) (s : State) :
    (s.m = 0 ∧ openStep mode s = s.raise ⟨.invalidKey, 0, 0⟩) ∨
      (∃ f, s.m ≠ 0 ∧ s.zeroSlots.seed.2 = some f ∧ openStep mode s = s.zeroSlots.seed.1.raise f) ∨
      (s.m ≠ 0 ∧ s.zeroSlots.seed.2 = none ∧
        openStep mode s = (s.zeroSlots.seed.1.startView.startEngine mode).complete) := by
  unfold openStep
  by_cases hm : s.m = 0
  · exact .inl ⟨hm, if_pos hm⟩
  · rw [if_neg hm]
    unfold State.chainInit
    rcases hs : s.zeroSlots.seed with ⟨t, _ | f⟩
    · exact .inr (.inr ⟨hm, rfl, rfl⟩)
    · exact .inr (.inl ⟨f, hm, rfl, rfl⟩)

/-! ## All commands -/

theorem hostSide_advanceTerm (s : State) : HostSideSame s s.advanceTerm := by constructor <;> simp

theorem hostSide_installView (s : State) : HostSideSame s s.installView := by constructor <;> simp

theorem hostSide_withResult (s : State) (v : Word) : HostSideSame s { s with result := v } :=
  ⟨rfl, rfl, rfl, rfl, rfl, rfl, rfl, rfl, rfl, rfl⟩

theorem hostSide_fetchRound (s : State) : HostSideSame s s.fetchRound := by
  rcases fetchRound_cases s with ⟨_, h⟩ | ⟨_, h⟩ <;> rw [h]
  · exact hostSide_advanceTerm s
  · exact (hostSide_advanceTerm s).trans (hostSide_installView _)

theorem hostSide_byteStep {s t : State} {b out : Byte} (h : s.byteStep b = .ok (t, out)) : HostSideSame s t := by
  rcases byteStep_cases s b with ⟨_, h'⟩ | ⟨_, h'⟩ <;> rw [h'] at h
  · cases h
  · rw [← (Prod.mk.inj (Except.ok.inj h)).1]
    exact ⟨rfl, rfl, rfl, rfl, rfl, rfl, rfl, rfl, rfl, rfl⟩

theorem hostSide_openStep (mode : Mode) (s : State) : HostSideSame s (openStep mode s) := by
  have hseed := ((onlyDigits_zeroSlots s).trans (onlyDigits_seed s.zeroSlots)).hostSide
  rcases openStep_cases mode s with ⟨_, h⟩ | ⟨f, _, _, h⟩ | ⟨_, _, h⟩ <;> rw [h]
  · exact hostSide_raise _ _
  · exact hseed.trans (hostSide_raise _ _)
  · refine hseed.trans ?_
    generalize s.zeroSlots.seed.1 = u
    exact ⟨rfl, rfl, rfl, rfl, rfl, rfl, rfl, rfl, rfl, rfl⟩

theorem hostSide_xformStep (s : State) : HostSideSame s (xformStep s) := by
  unfold xformStep
  split
  · exact hostSide_fetchRound s
  · split
    · exact hostSide_raise _ _
    · rename_i h; exact (hostSide_byteStep h).trans ⟨rfl, rfl, rfl, rfl, rfl, rfl, rfl, rfl, rfl, rfl⟩

theorem hostSide_flushOrFault {onOk : State → State} (hok : ∀ t, HostSideSame t (onOk t)) (s : State) :
    HostSideSame s (flushOrFault onOk s) := by
  unfold flushOrFault
  rcases snkSync_cases s with ⟨_, h⟩ | ⟨a, r, _, h⟩ <;> rw [h]
  · exact .refl s
  · cases a with
    | ok _ => dsimp only; refine HostSideSame.trans ?_ (hok _); exact ⟨rfl, rfl, rfl, rfl, rfl, rfl, rfl, rfl, rfl, rfl⟩
    | err e =>
      dsimp only; refine HostSideSame.trans ?_ (hostSide_raise _ _); exact ⟨rfl, rfl, rfl, rfl, rfl, rfl, rfl, rfl, rfl, rfl⟩

theorem hostSide_runStep (s : State) : HostSideSame s (runStep s) := by
  unfold runStep
  split
  · unfold runAskMore
    rcases srcHasMore_cases s with ⟨_, h⟩ | ⟨a, r, _, h⟩ <;> rw [h]
    · exact .refl s
    · rcases a with (_ | _) | _ <;> exact ⟨rfl, rfl, rfl, rfl, rfl, rfl, rfl, rfl, rfl, rfl⟩
  · unfold runTakeByte
    rcases srcTake_cases s with ⟨_, h⟩ | ⟨a, r, _, h⟩ <;> rw [h]
    · exact .refl s
    · rcases a with _ | _ <;> exact ⟨rfl, rfl, rfl, rfl, rfl, rfl, rfl, rfl, rfl, rfl⟩
  · unfold runByteStep
    split
    · exact hostSide_fetchRound s
    · split
      · exact ⟨rfl, rfl, rfl, rfl, rfl, rfl, rfl, rfl, rfl, rfl⟩
      · rename_i h; exact (hostSide_byteStep h).trans ⟨rfl, rfl, rfl, rfl, rfl, rfl, rfl, rfl, rfl, rfl⟩
  · rename_i out _
    unfold runPutByte
    rcases snkPut_cases s out with ⟨_, h⟩ | ⟨a, r, _, h⟩ <;> rw [h]
    · exact .refl s
    · rcases a with _ | _ <;> exact ⟨rfl, rfl, rfl, rfl, rfl, rfl, rfl, rfl, rfl, rfl⟩
  · exact hostSide_flushOrFault hostSide_complete s
  · unfold runFaultFlush
    rcases snkSync_cases s with ⟨_, h⟩ | ⟨a, r, _, h⟩ <;> rw [h]
    · exact .refl s
    · dsimp only; refine HostSideSame.trans ?_ (hostSide_raise _ _); exact ⟨rfl, rfl, rfl, rfl, rfl, rfl, rfl, rfl, rfl, rfl⟩

/-- No command's own step writes the parameters, OVR, LASTOP, the enables, DIN, the moves or what the host read. -/
theorem hostSide_ownStep (i : Instr) (s : State) : HostSideSame s (ownStep i s) := by
  cases i with
  | openEnc => exact hostSide_openStep _ s
  | openDec => exact hostSide_openStep _ s
  | xform => exact hostSide_xformStep s
  | run => exact hostSide_runStep s
  | close =>
    change HostSideSame s (closeStep s)
    unfold closeStep
    refine hostSide_flushOrFault (fun t => ?_) s
    exact ⟨rfl, rfl, rfl, rfl, rfl, rfl, rfl, rfl, rfl, rfl⟩
  | chainNext =>
    change HostSideSame s (chainNextStep s)
    unfold chainNextStep
    split
    · exact hostSide_fetchRound s
    · exact ((hostSide_fetchRound s).trans (hostSide_withResult _ _)).trans (hostSide_complete _)
  | sensLoad src =>
    change HostSideSame s (sensLoadStep src s)
    unfold sensLoadStep
    split
    · exact hostSide_raise _ _
    · rename_i h; exact (onlyDigits_loadSens h).hostSide.trans ⟨rfl, rfl, rfl, rfl, rfl, rfl, rfl, rfl, rfl, rfl⟩
  | sensAdd src =>
    change HostSideSame s (sensAddStep src s)
    unfold sensAddStep
    split
    · exact hostSide_raise _ _
    · rename_i h; exact (onlyDigits_addSens h).hostSide.trans ⟨rfl, rfl, rfl, rfl, rfl, rfl, rfl, rfl, rfl, rfl⟩
  | sensSqfold =>
    change HostSideSame s (sensSqfoldStep s)
    unfold sensSqfoldStep
    split <;> exact ⟨rfl, rfl, rfl, rfl, rfl, rfl, rfl, rfl, rfl, rfl⟩
  | keyPush b =>
    change HostSideSame s (keyPushStep b s)
    unfold keyPushStep
    split <;> exact ⟨rfl, rfl, rfl, rfl, rfl, rfl, rfl, rfl, rfl, rfl⟩
  | nop => exact hostSide_complete s
  | keyClear => exact ⟨rfl, rfl, rfl, rfl, rfl, rfl, rfl, rfl, rfl, rfl⟩
  | bigAdd _ _ _ => exact ⟨rfl, rfl, rfl, rfl, rfl, rfl, rfl, rfl, rfl, rfl⟩
  | sensExtract _ => exact ⟨rfl, rfl, rfl, rfl, rfl, rfl, rfl, rfl, rfl, rfl⟩
  | drd _ _ => exact ⟨rfl, rfl, rfl, rfl, rfl, rfl, rfl, rfl, rfl, rfl⟩
  | dwr _ _ => exact ⟨rfl, rfl, rfl, rfl, rfl, rfl, rfl, rfl, rfl, rfl⟩

/-- Nor does a command, whatever its checks say. -/
theorem hostSide_exec {i : Instr} {s t : State} (h : exec i s = .next t) : HostSideSame s t := by
  rw [exec_eq_checked] at h
  rcases checked_cases h with ⟨_, rfl⟩ | ⟨_, _, rfl⟩ | ⟨_, _, _, rfl⟩ | ⟨_, _, _, rfl⟩
  · exact .refl _
  · exact hostSide_raise _ _
  · exact hostSide_raise _ _
  · exact hostSide_ownStep i s

/-- Nor does the core's step, which always has a next state. -/
theorem coreStep_next (s : State) : ∃ t, coreStep s = .next t ∧ HostSideSame s t := by
  rcases coreStep_cases s with ⟨_, h⟩ | ⟨_, i, _, _, h⟩ | ⟨_, _, _, _, h⟩
  · exact ⟨s, h, .refl s⟩
  · obtain ⟨t, ht⟩ := exec_next i s
    exact ⟨t, h.trans ht, hostSide_exec ht⟩
  · refine ⟨_, h, ?_⟩
    by_cases hf : s.state = .fault
    · rw [if_pos hf]; exact .refl s
    · rw [if_neg hf]; exact hostSide_raise _ _

end Sys2Proof.Machine
end

