-- ==== Sys2Proof/Laws/PerInstr.lean ====
section
/-! SUPPORT. Statements made per instruction, one lemma per constructor of Instr. -/

namespace Sys2Proof.Laws

/-- The word of a command carries the command's opcode in field OPC (30_encoding.md R71, R75). -/
def OpcodeInWord.Statement (i : Instr) : Prop := opcField (encode i) = opcodeOf i

theorem OpcodeInWord.nop : OpcodeInWord.Statement .nop := opcField_packFields _ _ _ _

theorem OpcodeInWord.keyClear : OpcodeInWord.Statement .keyClear := opcField_packFields _ _ _ _

theorem OpcodeInWord.keyPush (b : Byte) : OpcodeInWord.Statement (.keyPush b) := opcField_packFields _ _ _ _

theorem OpcodeInWord.openEnc : OpcodeInWord.Statement .openEnc := opcField_packFields _ _ _ _

theorem OpcodeInWord.openDec : OpcodeInWord.Statement .openDec := opcField_packFields _ _ _ _

theorem OpcodeInWord.close : OpcodeInWord.Statement .close := opcField_packFields _ _ _ _

theorem OpcodeInWord.xform : OpcodeInWord.Statement .xform := opcField_packFields _ _ _ _

theorem OpcodeInWord.run : OpcodeInWord.Statement .run := opcField_packFields _ _ _ _

theorem OpcodeInWord.chainNext : OpcodeInWord.Statement .chainNext := opcField_packFields _ _ _ _

theorem OpcodeInWord.bigAdd (dst src len : Nat) : OpcodeInWord.Statement (.bigAdd dst src len) :=
  opcField_packFields _ _ _ _

theorem OpcodeInWord.sensLoad (src : Nat) : OpcodeInWord.Statement (.sensLoad src) := opcField_packFields _ _ _ _

theorem OpcodeInWord.sensAdd (src : Nat) : OpcodeInWord.Statement (.sensAdd src) := opcField_packFields _ _ _ _

theorem OpcodeInWord.sensSqfold : OpcodeInWord.Statement .sensSqfold := opcField_packFields _ _ _ _

theorem OpcodeInWord.sensExtract (dst : Nat) : OpcodeInWord.Statement (.sensExtract dst) := opcField_packFields _ _ _ _

theorem OpcodeInWord.drd (slot k : Nat) : OpcodeInWord.Statement (.drd slot k) := opcField_packFields _ _ _ _

theorem OpcodeInWord.dwr (slot k : Nat) : OpcodeInWord.Statement (.dwr slot k) := opcField_packFields _ _ _ _

end Sys2Proof.Laws
end

