-- ==== Sys2Proof/Machine/HostProgram.lean ====
section
/-! DEFINITION. The host's side of the command set: assembler text (30_encoding.md R79) and the host operations and
pseudo-operations with their expansions (R79, R80), as lists of the host's moves. -/

namespace Sys2Proof.Machine

/-- The name of a slot operand (R79). -/
def slotText (slot : Nat) : String := if slot = Config.sensSlot then "sens" else "t" ++ toString slot

/-- A command as assembler text, numbers in decimal (R79). -/
def commandText : Instr → String
  | .nop => "NOP"
  | .keyClear => "KEY_CLEAR"
  | .keyPush b => "KEY_PUSH " ++ toString b.toNat
  | .openEnc => "OPEN_ENC"
  | .openDec => "OPEN_DEC"
  | .close => "CLOSE"
  | .xform => "XFORM"
  | .run => "RUN"
  | .chainNext => "CHAIN_NEXT"
  | .bigAdd dst src len => "BIGADD " ++ slotText dst ++ ", " ++ slotText src ++ ", " ++ toString len
  | .sensLoad src => "SENS_LOAD " ++ slotText src
  | .sensAdd src => "SENS_ADD " ++ slotText src
  | .sensSqfold => "SENS_SQFOLD"
  | .sensExtract dst => "SENS_EXTRACT " ++ slotText dst
  | .drd slot k => "DRD " ++ slotText slot ++ ", " ++ toString k
  | .dwr slot k => "DWR " ++ slotText slot ++ ", " ++ toString k

/-- `WR <REG>, <value>`: a write of the register at an offset (R79). -/
def hostWr (base off : Nat) (v : Word) : List Event := [.host (.write 4 (base + off) v)]

/-- `RD <REG>` (R79). -/
def hostRd (base off : Nat) : List Event := [.host (.read 4 (base + off))]

/-- `CMD <command>` (R79). -/
def hostCmd (base : Nat) (i : Instr) : List Event := hostWr base 0x10 (encode i)

/-- `WAIT` (R80). -/
def pseudoWait : List Event := [.hostWait]

/-- `DO <command>` (R80). -/
def pseudoDo (base : Nat) (i : Instr) : List Event := hostCmd base i ++ pseudoWait

/-- `KEY "<bytes>"` (R80). -/
def pseudoKey (base : Nat) (bytes : List Byte) : List Event :=
  pseudoDo base .keyClear ++ bytes.flatMap fun b => pseudoDo base (.keyPush b)

/-- `XB <b>` (R80). -/
def pseudoXb (base : Nat) (b : Byte) : List Event :=
  hostWr base 0x14 (b.setWidth 32) ++ pseudoDo base .xform ++ hostRd base 0x18

/-- `POKE <slot>, <k>, <b>` (R80). -/
def pseudoPoke (base slot k : Nat) (b : Byte) : List Event :=
  hostWr base 0x14 (b.setWidth 32) ++ pseudoDo base (.dwr slot k)

/-- `PEEK <slot>, <k>` (R80). -/
def pseudoPeek (base slot k : Nat) : List Event := pseudoDo base (.drd slot k) ++ hostRd base 0x1C

/-- `ENCRYPT_STREAM` (R80). -/
def pseudoEncryptStream (base : Nat) : List Event :=
  pseudoDo base .openEnc ++ pseudoDo base .run ++ pseudoDo base .close

/-- `DECRYPT_STREAM` (R80). -/
def pseudoDecryptStream (base : Nat) : List Event :=
  pseudoDo base .openDec ++ pseudoDo base .run ++ pseudoDo base .close

end Sys2Proof.Machine
end

