-- ==== Sys2Proof/Tests/Slice0.lean ====
section
/-! SUPPORT. Tests with results written down in the spec (95_test_vectors.md unless another file is named), and for each
statement with hypotheses a state and operands that meet them. -/

namespace Sys2Proof.Tests

set_option Elab.async false

open Sys2Proof.Machine

/-! ## Helpers -/

/-- IDLE with a key and stored slots, digit 0 first. -/
def idleWith (key : List Byte) (slots : List (Nat × List Byte)) : State :=
  { State.reset with
    key := Memory.writeList [] 0 key
    keyLen := BitVec.ofNat 16 key.length
    digits := slots.foldl (fun m p => m.writeSlot p.1 p.2) [] }

/-- READY with key "A" and the terms 0, 3 and 9 of its seeds, the term-9 view consumed (V20). -/
def readyA : State :=
  { idleWith [0x41] [(0, [0x41]), (3, [0x03, 0x43]), (9, [0xC3, 0x46, 0x2C, 0x01])] with
    state := .ready, n := 9, e := 9, viewLen := 1, viewCur := 1 }

/-- READY with key "AB" and term 10 as the newest, its view [BD 21] not yet read (V40a). -/
def readyAB : State :=
  { idleWith [0x41, 0x42] [(10, [0x21, 0xBD, 0xF9])] with state := .ready, n := 10, e := 10, viewLen := 2 }

/-- A state with a command just accepted. -/
def withCommand (s : State) (i : Instr) : State := s.accept (encode i)

/-- A state with RUN in flight at a phase. -/
def running (s : State) (p : Phase) : State := { s with inFlight := some ⟨encode .run, 0, p⟩, lastOp := 0x11 }

/-- A state whose next move is the host's. -/
def hostNext (s : State) (op : HostOp) : State := { s with events := [.host op] }

/-- A state in FAULT with ILLEGAL_STATE held (V55). -/
def faulted : State :=
  { idleWith [0x41] [] with state := .fault, err := .illegalState, errInfo0 := 0x10000000, lastOp := 0x10 }

/-- The next state of a command, or the state itself where the model stops. -/
def after (i : Instr) (s : State) : State :=
  match exec i s with
  | .next t => t
  | _ => s

/-- The next state of a step. -/
def stepped (s : State) : State :=
  match step s with
  | .next t => t
  | _ => s

/-- Where the checks pass, `exec` answers the command's own step. -/
theorem exec_runs {i : Instr} {s : State} (hf : s.state ≠ .fault) (hl : legalIn i s.state = true)
    (ho : operandsInRange s.wT i = true) : exec i s = .next (ownStep i s) := by
  rw [exec_eq_checked]; exact checked_own _ hf hl ho

/-! ## Well-formedness: one ill-formed command per check -/

theorem test_wf_refuses_bigAdd_dst : (Instr.bigAdd 16 0 0).wf = false := by decide
theorem test_wf_refuses_bigAdd_src : (Instr.bigAdd 0 16 0).wf = false := by decide
theorem test_wf_refuses_bigAdd_len : (Instr.bigAdd 0 0 65536).wf = false := by decide
theorem test_wf_refuses_sensLoad_slot : (Instr.sensLoad 16).wf = false := by decide
theorem test_wf_refuses_sensAdd_slot : (Instr.sensAdd 16).wf = false := by decide
theorem test_wf_refuses_sensExtract_slot : (Instr.sensExtract 16).wf = false := by decide
theorem test_wf_refuses_drd_slot : (Instr.drd 16 0).wf = false := by decide
theorem test_wf_refuses_drd_index : (Instr.drd 0 65536).wf = false := by decide
theorem test_wf_refuses_dwr_slot : (Instr.dwr 16 0).wf = false := by decide
theorem test_wf_refuses_dwr_index : (Instr.dwr 0 65536).wf = false := by decide

/-! ## Decoding: words written out from the fields of 30_encoding.md R71 -/

theorem test_decode_nop : decode 0b00000000_0000_0000_0000000000000000 = .ok .nop := by decide
theorem test_decode_keyClear : decode 0b00000001_0000_0000_0000000000000000 = .ok .keyClear := by decide
theorem test_decode_keyPush : decode 0b00000010_0000_0000_0000000001000001 = .ok (.keyPush 0x41) := by decide
theorem test_decode_openEnc : decode 0b00001000_0000_0000_0000000000000000 = .ok .openEnc := by decide
theorem test_decode_openDec : decode 0b00001001_0000_0000_0000000000000000 = .ok .openDec := by decide
theorem test_decode_close : decode 0b00001010_0000_0000_0000000000000000 = .ok .close := by decide
theorem test_decode_xform : decode 0b00010000_0000_0000_0000000000000000 = .ok .xform := by decide
theorem test_decode_run : decode 0b00010001_0000_0000_0000000000000000 = .ok .run := by decide
theorem test_decode_chainNext : decode 0b00010010_0000_0000_0000000000000000 = .ok .chainNext := by decide
theorem test_decode_bigAdd : decode 0b00100000_0011_0101_0000000000000001 = .ok (.bigAdd 3 5 1) := by decide
theorem test_decode_sensLoad : decode 0b00101000_0100_0000_0000000000000000 = .ok (.sensLoad 4) := by decide
theorem test_decode_sensAdd : decode 0b00101001_0101_0000_0000000000000000 = .ok (.sensAdd 5) := by decide
theorem test_decode_sensSqfold : decode 0b00101010_0000_0000_0000000000000000 = .ok .sensSqfold := by decide
theorem test_decode_sensExtract : decode 0b00101011_0111_0000_0000000000000000 = .ok (.sensExtract 7) := by decide
theorem test_decode_drd : decode 0b00110000_0111_0000_0000000000000001 = .ok (.drd 7 1) := by decide
theorem test_decode_dwr : decode 0b00110001_1011_0000_0000000000001001 = .ok (.dwr 11 9) := by decide

/-- V53 and V54: an unassigned opcode, a non-zero reserved field. -/
theorem test_decode_illegal :
    decode 0x03000000 = .error (.unassignedOpcode 0x03) ∧ decode 0x02000141 = .error (.reservedFieldNonZero 0x02) := by
  decide

/-- The encodings listed with V1 to V8. -/
theorem test_encode_bigAdd :
    encode (.bigAdd 3 5 1) = 0x20350001 ∧ encode (.bigAdd 3 3 2) = 0x20330002 ∧ encode (.bigAdd 3 5 11) = 0x2035000B := by
  decide

/-! ## Single steps -/

/-- V61, without the host's part. -/
theorem test_nop : (after .nop (idleWith [] [])).statusWord = 0x00000010 := by decide +kernel

/-- P1's key. -/
theorem test_keyPush : (after (.keyPush 0x41) (idleWith [] [])).password = 0x41 := by decide +kernel

/-- V52. -/
theorem test_keyPush_full :
    let t := after (.keyPush 0x41) { idleWith [] [] with keyLen := 64 }
    t.err = .allocationFailure ∧ t.errInfo0 = 65 ∧ t.errInfo1 = 75 ∧ t.keyLen = 64 := by
  decide +kernel

theorem test_keyClear : (after .keyClear (idleWith [0x41, 0x42] [])).password = 0 := by decide +kernel

/-- V20 for key "A": the fourth and the last seed term. -/
theorem test_openEnc :
    let t := after .openEnc (idleWith [0x41] [])
    t.slotVal 3 = 0x4303 ∧ t.sensVal = 0x12C46C3 ∧ t.viewLen = 1 ∧ t.viewCur = 1 := by
  decide +kernel

/-- P4. -/
theorem test_openEnc_no_key : (after .openEnc (withCommand State.reset .openEnc)).statusWord = 0x00000807 := by
  decide +kernel

/-- 45_host_and_diag.md R223: a digit placed by DWR, here one above the active width, is lost at the next OPEN. -/
theorem test_openDec :
    let t := after .openDec (idleWith [0x41] [(11, List.replicate 20 0xFF), (10, [1])])
    t.mode = .decrypt ∧ t.digits.read (digitAddr 11 15) = 0 ∧ t.digits.read (digitAddr 10 0) = 0 := by
  decide +kernel

/-- 90_conflicts.md C2: with INIT_VIEW = FRESH the first byte of key "A" would be C3, not 44. -/
theorem test_fresh_view :
    (after .xform (after .openEnc { idleWith [0x41] [] with initView := .fresh })).dout = 0xC3 := by
  decide +kernel

/-- V30a. -/
theorem test_chainNext :
    let t := after .chainNext readyA
    t.slotVal 10 = 0x4344 ∧ t.result = 1 ∧ t.n = 10 ∧ t.e = 10 ∧ t.viewCur = 0 := by
  decide +kernel

/-- V40a. -/
theorem test_xform_encrypt :
    let t := after .xform { readyAB with din := 0x48 }
    t.dout = 0x05 ∧ t.pool = 1 ∧ t.prev = 0x48 ∧ t.viewCur = 1 ∧ t.j = 0 := by
  decide +kernel

/-- V41a. -/
theorem test_xform_decrypt :
    let t := after .xform { readyAB with din := 0x05, mode := .decrypt }
    t.dout = 0x48 ∧ t.pool = 1 ∧ t.prev = 0x48 := by
  decide +kernel

/-- V64, the first of its two core steps. -/
theorem test_run_source_fault :
    (after .run { running readyA .top with srcMore := [.err 0xABCD] }).phase = .faultFlush ⟨.ioSource, 0xABCD, 0⟩ := by
  decide +kernel

/-- V67. -/
theorem test_run_sink_fault :
    let t := after .run { running readyA .finalFlush with snkFlush := [.err 9] }
    t.err = .ioSink ∧ t.errInfo0 = 9 ∧ t.errInfo1 = 3 := by
  decide +kernel

/-- P1's last command. -/
theorem test_close :
    let t := after .close { withCommand readyA .close with snkFlush := [.ok ()] }
    t.statusWord = 0x00000A10 ∧ t.trace = [.flush (.ok ())] := by
  decide +kernel

/-- V1: the full wrap. -/
theorem test_bigAdd_wraps :
    let t := after (.bigAdd 3 5 1) (idleWith [] [(3, List.replicate 10 0xFF), (5, [1])])
    t.slotVal 3 = 0 ∧ t.result = 0x00000001 := by
  decide +kernel

/-- V5: the source is the destination, two digits of it added. -/
theorem test_bigAdd_same_slot :
    let t := after (.bigAdd 3 3 2) (idleWith [] [(3, [0x78, 0x56, 0x34, 0x12])])
    t.slotVal 3 = 0x1234ACF0 ∧ t.result = 0x00040000 := by
  decide +kernel

/-- V20a. -/
theorem test_sensLoad : (after (.sensLoad 0) (idleWith [0x41] [(0, [0x41])])).sensVal = 0x41 := by decide +kernel

/-- V20g. -/
theorem test_sensLoad_overflow :
    let t := after (.sensLoad 4) (idleWith [] [(4, List.replicate 9 0 ++ [1])])
    t.err = .sensitivityOverflow ∧ t.errInfo0 = 10 ∧ t.errInfo1 = 9 ∧ t.sensVal = 0 := by
  decide +kernel

/-- V20b. -/
theorem test_sensAdd :
    let t := after (.sensAdd 0) (idleWith [0x41] [(0, [0x41]), (11, [0x91])])
    t.sensVal = 0xD2 ∧ t.result = 1 := by
  decide +kernel

/-- V20e. -/
theorem test_sensAdd_overflow :
    let t := after (.sensAdd 5) (idleWith [] [(5, [1]), (11, List.replicate 9 0xFF)])
    t.err = .sensitivityOverflow ∧ t.errInfo0 = 10 ∧ t.sensVal = 256 ^ 9 - 1 := by
  decide +kernel

/-- V19c. -/
theorem test_sensSqfold :
    let t := after .sensSqfold (idleWith [] [(11, [0x56, 0x34, 0x12])])
    t.sensVal = 0xCC584A ∧ t.result = 3 := by
  decide +kernel

/-- The schoolbook procedure on V19. -/
theorem test_schoolbook : valDigits (schoolbookFold 10 0x4303).out = 0xA393 := by decide +kernel

/-- V20c. -/
theorem test_sensExtract :
    let t := after (.sensExtract 1) (idleWith [0x41] [(11, [0x91])])
    t.slotVal 1 = 0x91 ∧ t.result = 0x0A := by
  decide +kernel

/-- P3's last command. -/
theorem test_drd : (after (.drd 7 1) (idleWith [] [(7, [0x98, 0x9E])])).result = 0x9E := by decide +kernel

/-- V57. -/
theorem test_drd_range :
    let t := after (.drd 0 11) (idleWith [0x41] [])
    t.err = .illegalOperand ∧ t.errInfo0 = 0x3000000B ∧ t.errInfo1 = 0x0B := by
  decide +kernel

/-- P3's first command. -/
theorem test_dwr : (after (.dwr 3 1) { idleWith [] [] with din := 0x12 }).slotVal 3 = 0x1200 := by decide +kernel

/-- V53. -/
theorem test_illegal_command :
    let t := stepped (State.reset.withFetchWord 32 0x03000000)
    t.err = .illegalCmd ∧ t.errInfo0 = 0x03000000 ∧ t.errInfo1 = 0 ∧ t.statusWord = 0x00000307 := by
  decide +kernel

/-- V50. -/
theorem test_param : State.reset.register 0x04 = 0x0B0A0040 := by decide

/-- V59: a CMD write in FAULT. -/
theorem test_cmd_in_fault : (stepped (hostNext faulted (.write 4 0x10 0))).lastOp = 0x10 := by decide +kernel

/-- V63. -/
theorem test_cmd_while_busy : (stepped (hostNext (withCommand readyA .run) (.write 4 0x10 0))).ovr = true := by decide +kernel

/-- The text forms of 30_encoding.md R79. -/
theorem test_text : commandText (.bigAdd 3 5 1) = "BIGADD t3, t5, 1" ∧ commandText (.dwr 11 9) = "DWR sens, 9" := by
  decide +kernel

/-! ## Witnesses: states and operands that meet the hypotheses of the statements, clause by clause, at the ends of the
ranges -/

theorem witness_DecodeEncodeRoundTrip : (Instr.bigAdd 15 15 65535).wf = true ∧ (Instr.keyPush 0xFF).wf = true := by decide

theorem witness_DecodedWordIsItsEncoding :
    decode 0x20FFFFFF = .ok (.bigAdd 15 15 65535) ∧ decode 0x30F0FFFF = .ok (.drd 15 65535) := by
  decide

/-- A word of no row in flight: an unassigned opcode; a row's opcode with a reserved bit set. -/
theorem witness_WordIsOneCommandOrIllegal :
    (∀ r ∈ opcodeTable, r.covers 0x03000000 = false) ∧ (∀ r ∈ opcodeTable, r.covers 0x30010000 = false) ∧
      (State.reset.accept 0x03000000).inFlight = some ⟨0x03000000, 0, .top⟩ ∧
      (State.reset.accept 0x03000000).state ≠ .fault :=
  ⟨by simp [opcodeTable, OpcodeRow.covers], by simp [opcodeTable, OpcodeRow.covers], rfl, by decide⟩

/-- A command in flight; no move listed, the core's move, the host's wait; and a word placed by `withFetchWord`. -/
theorem witness_StepRunsDecodedCommand :
    (withCommand readyAB .xform).inFlight = some ⟨0x10000000, 0, .top⟩ ∧ decode 0x10000000 = .ok .xform ∧
      Instr.xform.wf = true ∧ (withCommand readyAB .xform).events = [] ∧
      ({ withCommand readyAB .xform with events := [.core] } : State).events = .core :: [] ∧
      ({ withCommand readyAB .xform with events := [.hostWait] } : State).events = .hostWait :: [] ∧
      decodeTableWord 32 0x10000000 = some .xform := by
  decide

theorem witness_IllegalStateRaised :
    readyAB.state = .ready ∧ opcodeOf (.dwr 11 11) = 0x31 ∧ State.reset.state = .idle ∧ opcodeOf .chainNext = 0x12 ∧
      opcodeOf (.drd 11 11) ∉ [(0x01 : BitVec 8), 0x02, 0x08, 0x09, 0x20, 0x28, 0x29, 0x2A, 0x2B, 0x31] ∧
      opcodeOf (.keyPush 0) ∉ [(0x0A : BitVec 8), 0x10, 0x11, 0x12] ∧ readyAB.phase = .top ∧
      readyAB.err ≠ .illegalState ∧ State.reset.phase = .top ∧ State.reset.err ≠ .illegalState := by
  decide

/-- The first slot, index and length out of range for a key of one byte. -/
theorem witness_IllegalOperandRaised :
    (idleWith [0x41] []).state = .idle ∧ (idleWith [0x41] []).wT = 11 ∧ 10 < 11 ∧ (idleWith [0x41] []).wT < 12 ∧ 11 < 12 ∧
      (idleWith [0x41] []).wT ≤ 11 ∧ readyA.state = .ready ∧ readyA.wT ≤ 11 := by
  decide

theorem witness_ResetMoveGivesResetValues :
    ({ faulted with events := [.hardReset] } : State).ResetIsNext ∧
      (hostNext (running readyA .needByte) (.write 4 0x08 0xFFFFFFFF)).ResetIsNext :=
  ⟨.inl rfl, .inr ⟨0xFFFFFFFF, rfl, by decide⟩⟩

/-- In FAULT: a command, reads at both ends of the window, DIN, CTRL without SRST, STATUS. -/
theorem witness_CmdWriteIgnoredInFault :
    faulted.state = .fault ∧ faulted.inFlight = none ∧ faulted.base = 0 ∧
      (hostNext faulted (.write 4 0x10 0)).events = .host (.write 4 (faulted.base + 0x10) 0) :: [] ∧
      (hostNext faulted (.read 4 0xFC)).events = .host (.read 4 (faulted.base + 0xFC)) :: [] ∧ 0xFC % 4 = 0 ∧ 0xFC < 256 ∧
      (hostNext faulted (.read 4 0)).events = .host (.read 4 (faulted.base + 0)) :: [] ∧
      (hostNext faulted (.write 4 0x14 7)).events = .host (.write 4 (faulted.base + 0x14) 7) :: [] ∧
      (hostNext faulted (.write 4 0x08 6)).events = .host (.write 4 (faulted.base + 0x08) 6) :: [] ∧
      (6 : Word).getLsbD 0 = false ∧
      (hostNext faulted (.write 4 0x0C 0x30)).events = .host (.write 4 (faulted.base + 0x0C) 0x30) :: [] := by
  decide

theorem witness_CmdWriteDroppedWhileBusy :
    let s := hostNext (withCommand readyA .run) (.write 4 0x10 0)
    s.state ≠ .fault ∧ s.busy = true ∧ s.events = .host (.write 4 (s.base + 0x10) 0) :: [] ∧
      ∃ t, step (stepped s) = .next t ∧ (stepped s).ovr = true := by
  refine ⟨by decide, by decide, by decide, ?_⟩
  obtain ⟨t, ht⟩ : ∃ t, step (stepped (hostNext (withCommand readyA .run) (.write 4 0x10 0))) = .next t := ⟨_, rfl⟩
  exact ⟨t, ht, by decide +kernel⟩

theorem witness_HostWritesActOnTheirRegister :
    State.reset.state ≠ .fault ∧ State.reset.inFlight = none ∧ State.reset.base = 0 ∧
      (∀ off ∈ [0x00, 0x08, 0x0C, 0x10, 0x14, 0xFC],
        off % 4 = 0 ∧ off < 256 ∧
          (hostNext State.reset (.write 4 off 6)).events = .host (.write 4 (State.reset.base + off) 6) :: []) ∧
      (6 : Word).getLsbD 0 = false ∧ 0x00 ∉ [0x08, 0x0C, 0x10, 0x14] ∧ 0xFC ∉ [0x08, 0x0C, 0x10, 0x14] := by
  decide

/-- Reads with no command in flight, and with one: of a register that stays defined and of one that does not. -/
theorem witness_HostReadsAnswerAndChangeNothing :
    (∀ off ∈ [0x00, 0x4C, 0xFC], off % 4 = 0 ∧ off < 256 ∧
      (hostNext readyA (.read 4 off)).events = .host (.read 4 (readyA.base + off)) :: []) ∧
      readyA.busy = false ∧ (withCommand readyA .run).busy = true ∧ 0x14 ∈ [0x00, 0x04, 0x08, 0x0C, 0x14] ∧
      0xFC ∉ [0x00, 0x04, 0x08, 0x0C, 0x14] := by
  decide

/-- A view as long as the active width, the largest key, the first reserved offset. -/
theorem witness_RegisterMapLayout :
    let s := { State.reset with mMax := 65525, keyLen := 65525, viewLen := 65535 }
    s.mMax < 65536 ∧ s.viewLen.toNat ≤ s.m + 10 ∧ s.m + 10 < 65536 ∧ 0x50 ≤ 0x50 := by
  decide

/-- Accesses at the last word of the window, past it, of one byte, and off a word boundary. -/
theorem witness_HostAccessNeedsWordForm :
    (hostNext State.reset (.read 4 0xFC)).events = .host (.read 4 0xFC) :: [] ∧
      (hostNext State.reset (.read 4 0x100)).events = .host (.read 4 0x100) :: [] ∧
      (hostNext State.reset (.write 1 0x14 0)).events = .host (.write 1 0x14 0) :: [] ∧
      (hostNext State.reset (.write 4 0x16 0)).events = .host (.write 4 0x16 0) :: [] := by
  decide

/-- DONE and its enable up outside FAULT, and in FAULT with DONE 0: words that clear one enable or DONE, and a step from each. -/
theorem witness_InterruptLevelFollowsState :
    let up := { readyA with done := true, ieDone := true }
    let held := { faulted with ieFault := true }
    up.state ≠ .fault ∧ (0x10 : Word).getLsbD 4 = true ∧ (0xFC : Word).getLsbD 1 = false ∧
      (∃ t, step up = .next t) ∧ up.done = true ∧ up.ieDone = true ∧ held.state = .fault ∧ held.done = false ∧
      (0xFA : Word).getLsbD 2 = false ∧ held.ieFault = true ∧ ∃ t, step held = .next t :=
  ⟨by decide, by decide, by decide, ⟨_, rfl⟩, rfl, rfl, rfl, rfl, by decide, rfl, _, rfl⟩

/-- In FAULT, a step that is no reset and one that is. -/
theorem witness_FaultLeftOnlyByReset :
    (∃ t, faulted.state = .fault ∧ step faulted = .next t ∧ ¬ faulted.ResetIsNext) ∧
      ∃ t, step { faulted with events := [.hardReset] } = .next t ∧
        ({ faulted with events := [.hardReset] } : State).ResetIsNext := by
  refine ⟨⟨_, rfl, rfl, ?_⟩, _, rfl, .inl rfl⟩
  rintro (h | ⟨v, h, _⟩) <;> simp [faulted, idleWith, State.reset] at h

theorem witness_KeyFixedWhileOpen :
    ∃ t, (withCommand readyA .xform).state = .ready ∧ step (withCommand readyA .xform) = .next t ∧
      ¬ (withCommand readyA .xform).ResetIsNext := by
  obtain ⟨t, ht⟩ : ∃ t, step (withCommand readyA .xform) = .next t := exec_next .xform (withCommand readyA .xform)
  refine ⟨t, rfl, ht, ?_⟩
  rintro (h | ⟨v, h, _⟩) <;> simp [withCommand, State.accept, readyA, idleWith, State.reset] at h

theorem witness_PortsUsedOnlyByRunAndClose :
    let s := { running readyA .top with srcMore := [.ok true] }
    step s = .next (stepped s) ∧ (stepped s).trace ≠ s.trace :=
  ⟨rfl, by decide +kernel⟩

theorem witness_DoneMeansCommandCompleted :
    let s := withCommand State.reset .nop
    step s = .next (stepped s) ∧ s.done = false ∧ (stepped s).done = true :=
  ⟨rfl, rfl, by decide +kernel⟩

theorem witness_ParametersNeverChange : ∃ t, step (withCommand readyA .run) = .next t := ⟨_, rfl⟩

theorem witness_LegalHostNeverStopsMachine :
    ({ State.reset with
        events := [.host (.read 4 0xFC), .host (.write 4 0 0), .hostWait, .core, .hardReset] } : State).HostKeepsForm := by
  intro ev hev
  simp only [List.mem_cons, List.not_mem_nil, or_false] at hev
  rcases hev with rfl | rfl | rfl | rfl | rfl
  · exact ⟨0xFC, rfl⟩
  · exact ⟨0, rfl⟩
  · trivial
  · trivial
  · trivial

/-- An open engine with stored digits, a key and a command in flight. -/
def invariantWitness : State :=
  { State.reset with
    key := [(0, 0x41)], keyLen := 1, digits := [(digitAddr 9 0, 0xC3)], state := .ready, n := 9, e := 9, viewLen := 1
    inFlight := some ⟨0x11000000, 0, .needByte⟩, lastOp := 0x11, trace := [.hasMore (.ok true)], srcNext := [.ok 5] }

theorem witness_StepKeepsInvariant : invariantWitness.Inv ∧ ∃ t, step invariantWitness = .next t := by
  refine ⟨⟨?_, ⟨by decide, by decide, ?_, ?_⟩, ?_, ?_, ?_, ?_⟩, _, rfl⟩
  · unfold State.ParamsOk; decide
  · intro i hi
    have h0 : i ≠ 0 := by have : (1 : Nat) ≤ i := hi; omega
    simp [State.keyByte, invariantWitness, Memory.read, Memory.unlisted, h0]
  · intro a ha
    refine ⟨9, 0, by decide, by decide, ?_⟩
    by_contra h
    simp [invariantWitness, Memory.read, Memory.unlisted, h] at ha
  · unfold State.HiddenOk; decide +kernel
  · intro _; decide
  · exact ⟨fun h => (nomatch h), fun _ => ⟨rfl, rfl, rfl⟩⟩
  · intro f hf
    cases hf
    exact ⟨rfl, by decide, fun _ => ⟨by decide, rfl⟩, fun g hg => nomatch hg⟩

theorem witness_StepKeepsPortOrder : invariantWitness.PortInv ∧ ∃ t, step invariantWitness = .next t := by
  exact ⟨⟨trivial, fun _ => rfl, fun b h => (nomatch h), fun o h => nomatch h⟩, _, rfl⟩

theorem witness_AddTruncAddsModuloWidth :
    ([1] : List Byte).length ≤ (List.replicate 10 0xFF : List Byte).length ∧ ([] : List Byte).length ≤ ([] : List Byte).length := by
  decide

/-- The shortest and a longer operand of each law. -/
theorem witness_SqfoldLaws : 2 ≤ siglen 256 ∧ siglen 1 = 1 ∧ siglen 255 = 1 ∧ siglen 0xFFFF ≤ 2 := by decide +kernel

theorem witness_SchoolbookComputesSqfold : siglen 0 ≤ 0 ∧ siglen 0x4303 ≤ 2 ∧ 0 < siglen 0x4303 := by decide +kernel

theorem witness_ByteTransformLaws :
    readyAB.viewExhausted = false ∧ ∃ t out, readyAB.byteStep 0x48 = .ok (t, out) := by
  refine ⟨by decide, ?_⟩
  rcases byteStep_cases readyAB 0x48 with ⟨h, _⟩ | ⟨_, h⟩
  · exact absurd h (by decide +kernel)
  · exact ⟨_, _, h⟩

theorem witness_NopCompletes : State.reset.state = .idle ∧ readyA.state = .ready := by decide

/-- The first and the last digit, slot 0 and SENS, both states; for DWR a byte of DIN latched. -/
theorem witness_DrdReadsDigit_and_DwrWritesDigit :
    State.reset.state = .idle ∧ readyA.state = .ready ∧ 11 ≤ 11 ∧ 0 < State.reset.wT ∧ 9 < State.reset.wT ∧
      10 < readyA.wT ∧ State.reset.digits.wf = true ∧
      ({ State.reset with inFlight := some ⟨encode (.dwr 11 9), 0x5A, .top⟩ } : State).latchedDin = 0x5A := by
  decide

theorem witness_KeyClearEmptiesKey : (idleWith [0x41] []).state = .idle := by decide

/-- A buffer with room for its last byte, and a full one. -/
theorem witness_KeyPushAppendsByte :
    let s := { idleWith [0x41, 0x42] [] with mMax := 3 }
    let full := { idleWith [0x41, 0x42] [] with mMax := 2 }
    s.state = .idle ∧ s.key.wf = true ∧ s.mMax ≤ 65525 ∧ s.m ≤ s.mMax ∧ s.m ≠ s.mMax ∧ full.state = .idle ∧
      full.key.wf = true ∧ full.m = full.mMax := by
  decide

/-- The whole width, the same slot, slot 10. -/
theorem witness_BigAddAddsSlots :
    let s := idleWith [0x41] [(10, [0x78, 0x56])]
    s.state = .idle ∧ 10 ≤ 10 ∧ 0 ≤ 10 ∧ 11 ≤ s.wT ∧ 0 ≤ s.wT ∧ s.m ≤ 65525 ∧ s.digits.wf = true := by
  decide

/-- The longest value that fits, and the shortest that does not. -/
theorem witness_SensLoadLoadsSlot :
    let s := idleWith [] [(10, List.replicate 9 0xFF), (4, List.replicate 9 0 ++ [1])]
    s.state = .idle ∧ s.digits.wf = true ∧ siglen (s.slotVal 10) ≤ s.wS ∧ s.wS < siglen (s.slotVal 4) := by
  decide +kernel

/-- V20f: the largest sum that fits; V20e: the smallest that does not. -/
theorem witness_SensAddAddsSlot :
    let s := idleWith [] [(10, [1]), (11, 0xFE :: List.replicate 8 0xFF)]
    let toobig := idleWith [] [(10, [1]), (11, List.replicate 9 0xFF)]
    s.state = .idle ∧ s.digits.wf = true ∧ s.sensVal + s.slotVal 10 < 256 ^ s.wS ∧ toobig.state = .idle ∧
      toobig.digits.wf = true ∧ 256 ^ toobig.wS ≤ toobig.sensVal + toobig.slotVal 10 := by
  decide +kernel

theorem witness_SensSqfoldFoldsSquare :
    let s := idleWith [] [(11, List.replicate 9 0xFF)]
    let toobig := idleWith [] [(11, List.replicate 9 0 ++ [1])]
    s.state = .idle ∧ s.digits.wf = true ∧ siglen s.sensVal ≤ s.wS ∧ toobig.state = .idle ∧ toobig.digits.wf = true ∧
      toobig.wS < siglen toobig.sensVal := by
  decide +kernel

theorem witness_SensExtractCopiesValue :
    let s := idleWith [0x41] [(11, [0x91])]
    s.state = .idle ∧ 10 ≤ 10 ∧ s.digits.wf = true := by
  decide

theorem witness_OpenBuildsChain : (idleWith [0x41] []).state = .idle ∧ (idleWith [0x41] []).m ≠ 0 := by decide

theorem witness_OpenWithoutKeyRaisesInvalidKey : State.reset.state = .idle ∧ State.reset.m = 0 := by decide

theorem witness_SeedingNeverOverflows : 0xFF < 256 ^ 1 ∧ (idleWith [0xFF] []).digits.wf = true := by decide

/-- A term with a usable suffix, and one without (a sum whose low digit is 0). -/
theorem witness_ChainNextAdvancesChain :
    let skipped := { readyA with digits := Memory.writeSlot [] 0 [0, 1] }
    readyA.state = .ready ∧ readyA.digits.wf = true ∧
      siglen ((readyA.slotVal 0 + readyA.slotVal 3) % 256 ^ readyA.wT % 256 ^ readyA.m) = 1 ∧ skipped.state = .ready ∧
      skipped.digits.wf = true ∧ siglen ((skipped.slotVal 0 + skipped.slotVal 3) % 256 ^ skipped.wT % 256 ^ skipped.m) = 0 := by
  decide +kernel

theorem witness_YieldedViewIsUsable : readyA.digits.wf = true ∧ readyA.advanceTerm.newestUsable ≠ 0 := by decide +kernel

/-- A key with a byte that is not 0, and an all-zero key: both open. -/
theorem witness_OpenedRingLivesUnlessKeyZero :
    let s := idleWith [0x41] []
    let z := idleWith [0] []
    (∃ t, exec .openEnc s = .next t ∧ t.state = .ready) ∧ (∃ t, exec .openDec z = .next t ∧ t.state = .ready) ∧
      s.state = .idle ∧ s.password ≠ 0 ∧ z.state = .idle ∧ z.password = 0 := by
  refine ⟨⟨_, exec_runs (by decide) (by decide) (by decide), by decide +kernel⟩,
    ⟨_, exec_runs (by decide) (by decide) (by decide), by decide +kernel⟩, ?_⟩
  decide +kernel

/-- Slot 0, ten places back from term 9, keeps the ring alive. -/
theorem readyA_alive : readyA.RingAlive := ⟨9, by decide, by decide +kernel⟩

theorem witness_LiveRingStaysAlive :
    let s := withCommand readyA .xform
    s.state = .ready ∧ s.digits.wf = true ∧ s.RingAlive ∧ step s = .next (stepped s) ∧ (stepped s).state = .ready :=
  ⟨rfl, by decide, readyA_alive, rfl, by decide +kernel⟩

theorem witness_NextEndsWithinTenRounds :
    (withCommand readyA .chainNext).state = .ready ∧ (withCommand readyA .chainNext).digits.wf = true ∧
      (withCommand readyA .chainNext).RingAlive ∧
      (withCommand readyA .chainNext).inFlight = some ⟨0x12000000, 0, .top⟩ ∧ decode 0x12000000 = .ok .chainNext ∧
      (withCommand readyA .xform).inFlight = some ⟨0x10000000, 0, .top⟩ ∧ decode 0x10000000 = .ok .xform :=
  ⟨rfl, by decide, readyA_alive, by decide, by decide, by decide, by decide⟩

/-- READY with an all-zero key of one byte, its view empty. -/
def readyZero : State := { idleWith [0] [] with state := .ready, n := 9, e := 9 }

theorem witness_DeadRingHangs :
    readyZero.state = .ready ∧ readyZero.digits.wf = true ∧ readyZero.RingDead ∧
      (withCommand readyZero .chainNext).inFlight = some ⟨0x12000000, 0, .top⟩ ∧ decode 0x12000000 = .ok .chainNext ∧
      (withCommand readyZero .xform).inFlight = some ⟨0x10000000, 0, .top⟩ ∧ decode 0x10000000 = .ok .xform ∧
      readyZero.viewExhausted = true ∧ (running readyZero (.haveByte 5)).inFlight = some ⟨0x11000000, 0, .haveByte 5⟩ ∧
      decode 0x11000000 = .ok .run :=
  ⟨rfl, by decide, (by unfold State.RingDead; decide +kernel), by decide, by decide, by decide, by decide, by decide, by decide,
    by decide⟩

/-- A full pool: with no carry the step commits (DIN 0), with a carry it overflows (DIN FF). -/
theorem witness_XformTransformsByte :
    let s := { readyAB with pool := 0xFFFFFFFFFFFFFFFF }
    s.state = .ready ∧ s.viewCur.toNat < s.viewLen.toNat ∧
      s.drainedPool + (transformByte s.mode 0 s.stepKey).quot < 2 ^ 64 ∧
      2 ^ 64 ≤ s.drainedPool + (transformByte s.mode 0xFF s.stepKey).quot := by
  decide +kernel

theorem witness_XformFetchesTerm :
    readyA.state = .ready ∧ readyA.viewLen.toNat ≤ readyA.viewCur.toNat ∧ readyA.digits.wf = true := by
  decide

theorem witness_CloseFlushesSink :
    readyA.state = .ready ∧ ({ readyA with snkFlush := [.ok ()] } : State).snkFlush = .ok () :: [] ∧
      ({ readyA with snkFlush := [.err 9] } : State).snkFlush = .err 9 :: [] ∧ readyA.snkFlush = [] := by
  decide

theorem witness_RunAsksItsSource :
    (running readyA .top).state = .ready ∧ (running readyA .top).inFlight = some ⟨0x11000000, 0, .top⟩ ∧
      (running readyA .needByte).inFlight = some ⟨0x11000000, 0, .needByte⟩ ∧
      (∀ a ∈ [.ok true, .ok false, .err (7 : Word)], ({ running readyA .top with srcMore := [a] } : State).srcMore = [a]) ∧
      (∀ a ∈ [.ok (0 : Byte), .err (7 : Word)], ({ running readyA .needByte with srcNext := [a] } : State).srcNext = [a]) ∧
      (running readyA .top).srcMore = [] ∧ (running readyA .needByte).srcNext = [] := by
  refine ⟨rfl, by decide, by decide, fun _ _ => rfl, fun _ _ => rfl, rfl, rfl⟩

theorem witness_RunWritesItsSink :
    (running readyA (.putByte 0x44)).state = .ready ∧
      (running readyA (.putByte 0x44)).inFlight = some ⟨0x11000000, 0, .putByte 0x44⟩ ∧
      (∀ a ∈ [.ok (), .err (3 : Word)], ({ running readyA (.putByte 0x44) with snkWrite := [a] } : State).snkWrite = [a]) ∧
      (running readyA (.putByte 0x44)).snkWrite = [] := by
  refine ⟨rfl, by decide, fun _ _ => rfl, rfl⟩

theorem witness_RunEndsWithFlush :
    (running readyA .finalFlush).state = .ready ∧
      (running readyA .finalFlush).inFlight = some ⟨0x11000000, 0, .finalFlush⟩ ∧
      (running readyA (.faultFlush ⟨.ioSource, 7, 1⟩)).inFlight = some ⟨0x11000000, 0, .faultFlush ⟨.ioSource, 7, 1⟩⟩ ∧
      (∀ a ∈ [.ok (), .err (9 : Word)], ({ running readyA .finalFlush with snkFlush := [a] } : State).snkFlush = [a]) ∧
      (running readyA .finalFlush).snkFlush = [] := by
  refine ⟨rfl, by decide, by decide, fun _ _ => rfl, rfl⟩

theorem witness_RunMovesOneByte :
    let s := { running readyAB .top with srcMore := [.ok true], srcNext := [.ok 0x48], snkWrite := [.ok ()] }
    s.state = .ready ∧ s.inFlight = some ⟨0x11000000, 0, .top⟩ ∧ decode 0x11000000 = .ok .run ∧ s.viewExhausted = false ∧
      s.srcMore = .ok true :: [] ∧ s.srcNext = .ok 0x48 :: [] ∧ s.snkWrite = .ok () :: [] ∧
      ∃ u out, s.byteStep 0x48 = .ok (u, out) := by
  intro s
  refine ⟨rfl, by decide, by decide, by decide, rfl, rfl, rfl, ?_⟩
  rcases byteStep_cases s 0x48 with ⟨h, _⟩ | ⟨_, h⟩
  · exact absurd h (by decide +kernel)
  · exact ⟨_, _, h⟩

/-- A byte in hand: on the consumed view right after OPEN, and on an unread view with a full pool and a carry to come. -/
theorem witness_RunMovesOneByte_fetch_and_overflow :
    let fetch := running readyA (.haveByte 0xFF)
    let full := running { readyAB with pool := 0xFFFFFFFFFFFFFFFF } (.haveByte 0xFF)
    fetch.state = .ready ∧ fetch.inFlight = some ⟨0x11000000, 0, .haveByte 0xFF⟩ ∧
      fetch.viewLen.toNat ≤ fetch.viewCur.toNat ∧ fetch.digits.wf = true ∧ full.state = .ready ∧
      full.inFlight = some ⟨0x11000000, 0, .haveByte 0xFF⟩ ∧ full.viewCur.toNat < full.viewLen.toNat ∧
      2 ^ 64 ≤ full.drainedPool + (transformByte full.mode (0xFF : Byte).toNat full.stepKey).quot := by
  decide +kernel

theorem witness_RunOnEmptySourceOnlyFlushes :
    let s := { running readyAB .top with srcMore := [.ok false], snkFlush := [.ok ()] }
    s.state = .ready ∧ s.inFlight = some ⟨0x11000000, 0, .top⟩ ∧ decode 0x11000000 = .ok .run ∧
      s.srcMore = .ok false :: [] ∧ s.snkFlush = .ok () :: [] :=
  ⟨rfl, by decide, by decide, rfl, rfl⟩

theorem witness_StreamRoundTrip :
    let s := idleWith [0x41] []
    s.state = .idle ∧ s.password ≠ 0 ∧ (∃ enc, exec .openEnc s = .next enc ∧ enc.state = .ready) ∧
      (∃ dec, exec .openDec s = .next dec) ∧ ([0x00, 0xFF] : List Byte).length < 2 ^ 64 :=
  ⟨rfl, by decide +kernel, ⟨_, exec_runs (by decide) (by decide) (by decide), by decide +kernel⟩,
    ⟨_, exec_runs (by decide) (by decide) (by decide)⟩, by decide⟩

end Sys2Proof.Tests
end

section
/-! PROOFS. The significant length (00_scope.md R12), and the invariant of the machine through every step (00_scope.md R8, R9,
10_state.md R22 to R37, 30_encoding.md R70, 60_exceptions.md R240 to R255).

The invariant is proved one layer at a time: what keeps the digit space in its physical widths; what keeps the invariant while a
command runs (`State.Running`); the two ways a command ends; then one lemma per own step, per host access and per move. -/

namespace Sys2Proof.Machine

/-! ## The significant length -/

/-- R12 as an equivalence: `siglen v` is the least `L` with `v < 256^L`. -/
theorem siglen_le_iff (v L : Nat) : siglen v ≤ L ↔ v < 256 ^ L := by
  unfold siglen
  split
  · next h0 => simp [h0]
  · next h0 =>
    have hpow : 256 ^ L = 2 ^ (8 * L) := by rw [pow_mul]; norm_num
    rw [hpow, ← Nat.log2_lt h0]
    omega

theorem lt_pow_siglen (v : Nat) : v < 256 ^ siglen v := (siglen_le_iff v _).mp le_rfl

/-- Settles O28. -/
theorem siglenIsLeastBound : Obligations.SiglenIsLeastBound :=
  ⟨fun v => ⟨lt_pow_siglen v, fun L => (siglen_le_iff v L).mpr⟩, by decide, by decide, by decide⟩

/-- The usable length of a value is at most the length of the key (43_keygen_fsm.md R164). -/
theorem State.usableLen_le (s : State) (v : Nat) : s.usableLen v ≤ s.m :=
  (siglen_le_iff _ _).mpr (Nat.mod_lt _ (by positivity))

/-! ## The digit space within its physical widths -/

/-- Canonical storage in which only digits of slots 0 to 11 below `width` are not 0: the digit space's part of
`State.StorageOk`. -/
def DigitsWithin (width : Nat) (d : Memory) : Prop :=
  d.wf = true ∧ ∀ a, d.read a ≠ 0 → ∃ slot k, slot ≤ Config.sensSlot ∧ k < width ∧ a = digitAddr slot k

theorem digitsWithin_nil (width : Nat) : DigitsWithin width [] := ⟨rfl, fun _ h => absurd rfl h⟩

theorem DigitsWithin.write {width slot k : Nat} {d : Memory} (h : DigitsWithin width d) (hslot : slot ≤ Config.sensSlot)
    (hk : k < width) (v : Byte) : DigitsWithin width (d.write (digitAddr slot k) v) := by
  obtain ⟨hwf, hin⟩ := h
  refine ⟨Memory.wf_write hwf _ _, fun a ha => ?_⟩
  rw [Memory.read_write hwf] at ha
  by_cases hak : a = digitAddr slot k
  · exact ⟨slot, k, hslot, hk, hak⟩
  · rw [if_neg hak] at ha
    exact hin a ha

theorem DigitsWithin.writeSlot {width slot : Nat} {d : Memory} (h : DigitsWithin width d) (hslot : slot ≤ Config.sensSlot)
    {ds : List Byte} (hds : ds.length ≤ width) : DigitsWithin width (d.writeSlot slot ds) := by
  obtain ⟨hwf, hin⟩ := h
  refine ⟨Memory.wf_writeSlot hwf _ _, fun a ha => ?_⟩
  rw [Memory.read_writeSlot hwf] at ha
  split at ha
  · next hrange =>
    simp only [digitAddr] at hrange
    exact ⟨slot, a - digitAddr slot 0, hslot, by simp only [digitAddr]; omega, by simp only [digitAddr]; omega⟩
  · exact hin a ha

/-! ## While a command runs -/

/-- The invariant with a command in flight: what holds from a command's own step's start to its end. -/
def State.Running (s : State) : Prop := s.Inv ∧ s.busy = true

theorem State.Inv.running {s : State} {f : InFlight} (h : s.Inv) (hf : s.inFlight = some f) : s.Running :=
  ⟨h, by simp [State.busy, hf]⟩

theorem State.Running.state_ne_fault {s : State} (h : s.Running) : s.state ≠ .fault := by
  obtain ⟨⟨_, _, _, _, ⟨hfault, _⟩, _⟩, hbusy⟩ := h
  intro hst
  obtain ⟨_, hnone, _⟩ := hfault hst
  simp [State.busy, hnone] at hbusy

theorem State.Running.done_eq_false {s : State} (h : s.Running) : s.done = false := by
  obtain ⟨⟨_, _, _, _, _, hflight⟩, hbusy⟩ := h
  obtain ⟨f, hf⟩ := Option.isSome_iff_exists.mp hbusy
  exact (hflight f hf).1

/-- Outside FAULT the error registers are clear. -/
theorem State.Inv.error_clear {s : State} (h : s.Inv) (hst : s.state ≠ .fault) :
    s.err = .none ∧ s.errInfo0 = 0 ∧ s.errInfo1 = 0 := by
  obtain ⟨_, _, _, _, ⟨_, hclear⟩, _⟩ := h
  exact hclear hst

/-- The active width of a slot is within its physical width (R8, R9). -/
theorem State.Inv.wT_le_wMax {s : State} (h : s.Inv) : s.wT ≤ s.wMax := by
  obtain ⟨⟨_, _, hm⟩, _⟩ := h
  exact Nat.add_le_add_right hm _

theorem State.Inv.digitsWithin {s : State} (h : s.Inv) : DigitsWithin s.wMax s.digits := by
  obtain ⟨_, ⟨_, hwf, _, hin⟩, _⟩ := h
  exact ⟨hwf, hin⟩

theorem State.Inv.engineOk {s : State} (h : s.Inv) : s.EngineOk := by
  obtain ⟨_, _, _, hengine, _, _⟩ := h
  exact hengine

/-- The hidden buffers after a command, a fault or a reset are cut to their widths (10_state.md R25). -/
theorem hiddenOk_scrambleHidden (s : State) : s.scrambleHidden.HiddenOk :=
  ⟨Nat.mod_lt _ (by positivity), Nat.mod_lt _ (by positivity)⟩

/-! ## How a command ends -/

/-- A command completes in IDLE or READY: no other part of the invariant asks for anything of the state left. -/
theorem inv_complete {s : State} (hparams : s.ParamsOk) (hstorage : s.StorageOk) (hengine : s.EngineOk)
    (hst : s.state ≠ .fault) (hclear : s.err = .none ∧ s.errInfo0 = 0 ∧ s.errInfo1 = 0) : s.complete.Inv := by
  refine ⟨hparams, hstorage, hiddenOk_scrambleHidden s, hengine, ⟨fun h => absurd h hst, fun _ => hclear⟩, ?_⟩
  intro f hf
  simp at hf

theorem State.Running.complete {s : State} (h : s.Running) : s.complete.Inv := by
  have hst := h.state_ne_fault
  have hclear := h.1.error_clear hst
  obtain ⟨⟨hparams, hstorage, _, hengine, _, _⟩, _⟩ := h
  exact inv_complete hparams hstorage hengine hst hclear

/-- Raising needs a command in flight, for the acceptance of it cleared DONE (60_exceptions.md R241). -/
theorem State.Running.raise {s : State} {f : FaultInfo} (h : s.Running) (hcode : f.code ≠ .none) : (s.raise f).Inv := by
  have hdone := h.done_eq_false
  obtain ⟨⟨hparams, hstorage, _, _, _, _⟩, _⟩ := h
  refine ⟨hparams, hstorage, hiddenOk_scrambleHidden s, ?_, ⟨fun _ => ⟨hcode, rfl, hdone⟩, fun hne => absurd rfl hne⟩, ?_⟩
  · intro hready
    simp at hready
  · intro g hg
    simp at hg

/-! ## What a running command may store -/

/-- RESULT is no part of the invariant. -/
theorem State.Running.withResult {s : State} (h : s.Running) (v : Word) : ({ s with result := v } : State).Running := h

/-- Nor is DOUT. -/
theorem State.Running.withDout {s : State} (h : s.Running) (v : Byte) : ({ s with dout := v } : State).Running := h

theorem State.Running.setDigits {s : State} {d : Memory} (h : s.Running) (hd : DigitsWithin s.wMax d) :
    ({ s with digits := d } : State).Running := by
  obtain ⟨⟨hparams, ⟨hkey, _, hpast, _⟩, hhidden, hengine, herror, hflight⟩, hbusy⟩ := h
  obtain ⟨hwf, hin⟩ := hd
  exact ⟨⟨hparams, ⟨hkey, hwf, hpast, hin⟩, hhidden, hengine, herror, hflight⟩, hbusy⟩

theorem State.Running.zeroSlots {s : State} (h : s.Running) : s.zeroSlots.Running := h.setDigits (digitsWithin_nil _)

theorem State.Running.setSlot {s : State} {slot : Nat} {ds : List Byte} (h : s.Running) (hslot : slot ≤ Config.sensSlot)
    (hds : ds.length = s.wT) : (s.setSlot slot ds).Running :=
  h.setDigits (h.1.digitsWithin.writeSlot hslot (hds.trans_le h.1.wT_le_wMax))

theorem State.slotDigits_length (s : State) (slot : Nat) : (s.slotDigits slot).length = s.wT := Memory.length_readSlot _ _ _

theorem State.Running.setSens {s : State} (h : s.Running) (v : Nat) : (s.setSens v).Running :=
  h.setSlot le_rfl (length_toDigits _ _)

theorem State.Running.extractSens {s : State} {slot : Nat} (h : s.Running) (hslot : slot ≤ Config.sensSlot) :
    (s.extractSens slot).Running :=
  h.setSlot hslot (s.slotDigits_length _)

theorem State.Running.loadSens {s t : State} {v : Nat} (h : s.Running) (ht : s.loadSens v = .ok t) : t.Running := by
  rcases loadSens_cases s v with ⟨_, h'⟩ | ⟨_, h'⟩ <;> rw [h'] at ht <;> cases ht
  exact h.setSens v

theorem State.Running.addSens {s t : State} {slot : Nat} (h : s.Running) (ht : s.addSens slot = .ok t) : t.Running := by
  rcases addSens_cases s slot with ⟨_, h'⟩ | ⟨_, h'⟩ <;> rw [h'] at ht <;> cases ht
  exact h.setSlot le_rfl (by rw [length_addTrunc, State.slotDigits_length])

theorem loadSens_error_code {s : State} {v : Nat} {f : FaultInfo} (h : s.loadSens v = .error f) :
    f.code = .sensitivityOverflow := by
  rcases loadSens_cases s v with ⟨_, h'⟩ | ⟨_, h'⟩ <;> rw [h'] at h <;> cases h
  rfl

theorem addSens_error_code {s : State} {slot : Nat} {f : FaultInfo} (h : s.addSens slot = .error f) :
    f.code = .sensitivityOverflow := by
  rcases addSens_cases s slot with ⟨_, h'⟩ | ⟨_, h'⟩ <;> rw [h'] at h <;> cases h
  rfl

/-! ## Seeding -/

theorem State.Running.seedRound {s t : State} {i : Nat} (h : s.Running) (hi : i ≤ Config.sensSlot)
    (ht : s.seedRound i = .ok t) : t.Running := by
  obtain ⟨u, hu, rfl⟩ := seedRound_ok ht
  exact ((h.addSens hu).setSens _).extractSens hi

theorem seedRound_error_code {s : State} {i : Nat} {f : FaultInfo} (h : s.seedRound i = .error f) :
    f.code = .sensitivityOverflow := by
  unfold State.seedRound at h
  split at h
  · next hadd => cases h; exact addSens_error_code hadd
  · cases h

/-- Every round stores to slot `i` or to SENS; the rounds end below slot 12. -/
theorem State.Running.seedRounds {rounds i : Nat} {s : State} (h : s.Running) (hi : i + rounds ≤ Config.sensSlot + 1) :
    (seedRounds rounds i s).1.Running := by
  induction rounds generalizing i s with
  | zero => exact h
  | succ rounds ih =>
    rw [Machine.seedRounds]
    split
    · exact h
    · next ht => exact ih (h.seedRound (by omega) ht) (by omega)

theorem seedRounds_fault_code {rounds i : Nat} {s : State} {f : FaultInfo} (h : (seedRounds rounds i s).2 = some f) :
    f.code = .sensitivityOverflow := by
  induction rounds generalizing i s with
  | zero => cases h
  | succ rounds ih =>
    rw [seedRounds] at h
    split at h
    · next hround => cases h; exact seedRound_error_code hround
    · exact ih h

theorem State.Running.seed {s : State} (h : s.Running) : s.seed.1.Running := by
  have h0 : (s.setSlot 0 (toDigits s.wT s.password)).Running := h.setSlot (by decide) (length_toDigits _ _)
  unfold State.seed
  simp only
  split
  · exact h0
  · next ht => exact (((h0.loadSens ht).setSens _).extractSens (by decide)).seedRounds (by decide)

theorem seed_fault_code {s : State} {f : FaultInfo} (h : s.seed.2 = some f) : f.code = .sensitivityOverflow := by
  unfold State.seed at h
  simp only at h
  split at h
  · next hload => cases h; exact loadSens_error_code hload
  · exact seedRounds_fault_code h

/-! ## The view -/

theorem toNat_add_one_of_lt {x : BitVec 16} (h : x.toNat + 1 < 2 ^ 16) : (x + 1).toNat = x.toNat + 1 :=
  BitVec.toNat_add_of_lt h

/-- A 16-bit register holds the usable length of any value whole (R9). -/
theorem State.Inv.usableLen_toNat {s : State} (h : s.Inv) (v : Nat) :
    (BitVec.ofNat 16 (s.usableLen v)).toNat = s.usableLen v := by
  have hle := s.usableLen_le v
  obtain ⟨⟨_, hlimit, hm⟩, _⟩ := h
  have hmax : s.mMax < 2 ^ 16 := hlimit.trans_lt (by decide)
  exact BitVec.toNat_ofNat .. |>.trans (Nat.mod_eq_of_lt ((hle.trans hm).trans_lt hmax))

theorem initialCursor_le (init : Config.InitView) (len : BitVec 16) : (initialCursor init len).toNat ≤ len.toNat := by
  cases init
  · exact le_rfl
  · exact Nat.zero_le _

theorem State.Running.setView {s : State} {len cur j : BitVec 16} (h : s.Running)
    (he : ({ s with viewLen := len, viewCur := cur, j := j } : State).EngineOk) :
    ({ s with viewLen := len, viewCur := cur, j := j } : State).Running := by
  obtain ⟨⟨hparams, hstorage, hhidden, _, herror, hflight⟩, hbusy⟩ := h
  exact ⟨⟨hparams, hstorage, hhidden, he, herror, hflight⟩, hbusy⟩

theorem State.Running.installView {s : State} (h : s.Running) : s.installView.Running := by
  have hlen := h.1.usableLen_toNat (s.slotVal s.e.val)
  refine h.setView fun hready => ?_
  obtain ⟨hm, _⟩ := h.1.engineOk hready
  exact ⟨hm, hlen.trans_le (s.usableLen_le _), Nat.zero_le _, Nat.lt_of_lt_of_le Nat.one_pos (le_max_right _ _)⟩

theorem State.Running.advanceTerm {s : State} (h : s.Running) : s.advanceTerm.Running := by
  have hslot : (s.e + 1).val ≤ Config.sensSlot := (s.e + 1).isLt.le
  exact h.setSlot hslot (by rw [length_addTrunc, State.slotDigits_length])

theorem State.Running.fetchRound {s : State} (h : s.Running) : s.fetchRound.Running := by
  rcases fetchRound_cases s with ⟨_, h'⟩ | ⟨_, h'⟩ <;> rw [h']
  · exact h.advanceTerm
  · exact h.advanceTerm.installView

/-- A byte step on a view that is not exhausted leaves J and the cursor within the view (44_xform_engine.md R193). -/
theorem State.Running.commitByte {s : State} (h : s.Running) (hview : s.viewExhausted = false)
    (pool : BitVec Config.poolBits) (prev : Byte) :
    ({ s with j := BitVec.ofNat 16 s.stepIndex, viewCur := s.viewCur + 1, pool := pool, prev := prev } : State).Running := by
  have hcur : s.viewCur.toNat < s.viewLen.toNat := by
    simpa [State.viewExhausted, BitVec.le_def] using hview
  have hidx : s.stepIndex < s.viewLen.toNat := Nat.mod_lt _ (by omega)
  refine h.setView fun hready => ?_
  obtain ⟨hm, hlen, _, _⟩ := h.1.engineOk hready
  have hlt : s.viewCur.toNat + 1 < 2 ^ 16 := Nat.lt_of_le_of_lt hcur s.viewLen.isLt
  refine ⟨hm, hlen, ?_, ?_⟩
  · change (s.viewCur + 1).toNat ≤ s.viewLen.toNat
    rw [toNat_add_one_of_lt hlt]
    omega
  · change (BitVec.ofNat 16 s.stepIndex).toNat < max s.viewLen.toNat 1
    rw [BitVec.toNat_ofNat]
    omega

/-! ## The own step of each command that can fault or go on -/

theorem inv_keyPushStep {s : State} (b : Byte) (h : s.Running) (hidle : s.state = .idle) : (keyPushStep b s).Inv := by
  unfold keyPushStep
  split
  · exact h.raise (by decide : ErrCode.allocationFailure ≠ .none)
  · next hfull =>
    have hclear := h.1.error_clear h.state_ne_fault
    obtain ⟨⟨⟨hpos, hlimit, hm⟩, ⟨hkey, hwf, hpast, hin⟩, _⟩, _⟩ := h
    have hmax : s.mMax < 2 ^ 16 := hlimit.trans_lt (by decide)
    have hlen : (s.keyLen + 1).toNat = s.m + 1 :=
      toNat_add_one_of_lt (Nat.lt_of_le_of_lt (Nat.lt_of_le_of_ne hm hfull) hmax)
    refine inv_complete ⟨hpos, hlimit, ?_⟩ ⟨Memory.wf_write hkey _ _, hwf, ?_, hin⟩ ?_ (by simp [hidle]) hclear
    · change (s.keyLen + 1).toNat ≤ s.mMax
      omega
    · intro i hi
      change (s.keyLen + 1).toNat ≤ i at hi
      change (s.key.write s.m b).read i = 0
      rw [Memory.read_write hkey, if_neg (by omega)]
      exact hpast i (by omega)
    · intro hready
      simp [hidle] at hready

theorem inv_keyClearStep {s : State} (h : s.Running) (hidle : s.state = .idle) : (keyClearStep s).Inv := by
  have hclear := h.1.error_clear h.state_ne_fault
  obtain ⟨⟨⟨hpos, hlimit, _⟩, ⟨_, hwf, _, hin⟩, _⟩, _⟩ := h
  refine inv_complete ⟨hpos, hlimit, Nat.zero_le _⟩ ⟨rfl, hwf, fun _ _ => rfl, hin⟩ ?_ (by simp [hidle]) hclear
  intro hready
  simp [hidle] at hready

/-- The engine starts with the term-9 view within the key, the cursor within the view and J at 0 (43_keygen_fsm.md R163). -/
theorem State.Running.startEngine {s : State} (h : s.Running) (hm : s.m ≠ 0) (mode : Mode) :
    (s.startView.startEngine mode).complete.Inv := by
  have hclear := h.1.error_clear h.state_ne_fault
  have hlen := h.1.usableLen_toNat (s.slotVal 9)
  obtain ⟨⟨hparams, hstorage, _⟩, _⟩ := h
  refine inv_complete hparams hstorage (fun _ => ⟨Nat.pos_of_ne_zero hm, ?_, ?_, ?_⟩) nofun hclear
  · exact hlen.trans_le (s.usableLen_le _)
  · exact initialCursor_le _ _
  · exact Nat.lt_of_lt_of_le Nat.one_pos (le_max_right _ _)

theorem inv_openStep {s : State} (mode : Mode) (h : s.Running) : (openStep mode s).Inv := by
  have hseed := h.zeroSlots.seed
  rcases openStep_cases mode s with ⟨_, h'⟩ | ⟨f, _, hf, h'⟩ | ⟨hm, _, h'⟩ <;> rw [h']
  · exact h.raise (by decide : ErrCode.invalidKey ≠ .none)
  · exact hseed.raise (by rw [seed_fault_code hf]; decide)
  · have hkey : s.zeroSlots.seed.1.m = s.m := by
      have honly : OnlyDigits s s.zeroSlots.seed.1 := (onlyDigits_zeroSlots s).trans (onlyDigits_seed _)
      rw [honly]; rfl
    exact hseed.startEngine (by rwa [hkey]) mode

theorem inv_chainNextStep {s : State} (h : s.Running) : (chainNextStep s).Inv := by
  unfold chainNextStep
  split
  · exact h.fetchRound.1
  · exact (h.fetchRound.withResult _).complete

theorem inv_xformStep {s : State} (h : s.Running) : (xformStep s).Inv := by
  unfold xformStep
  split
  · exact h.fetchRound.1
  · next hview =>
    rcases byteStep_cases s s.latchedDin with ⟨_, h'⟩ | ⟨_, h'⟩ <;> rw [h']
    · exact h.raise (by decide : ErrCode.poolOverflow ≠ .none)
    · exact ((h.commitByte (by simpa using hview) _ _).withDout _).complete

theorem inv_sensLoadStep {s : State} (src : Nat) (h : s.Running) : (sensLoadStep src s).Inv := by
  unfold sensLoadStep
  split
  · next hload => exact h.raise (by rw [loadSens_error_code hload]; decide)
  · next t hload => exact ((h.loadSens hload).withResult _).complete

theorem inv_sensAddStep {s : State} (src : Nat) (h : s.Running) : (sensAddStep src s).Inv := by
  unfold sensAddStep
  split
  · next hadd => exact h.raise (by rw [addSens_error_code hadd]; decide)
  · next t hadd => exact ((h.addSens hadd).withResult _).complete

theorem inv_sensSqfoldStep {s : State} (h : s.Running) : (sensSqfoldStep s).Inv := by
  unfold sensSqfoldStep
  split
  · exact h.raise (by decide : ErrCode.sensitivityOverflow ≠ .none)
  · exact ((h.setSens _).withResult _).complete

/-- One flush, whose failure is raised directly (44_xform_engine.md R195, R197). -/
theorem inv_flushOrFault {s : State} {onOk : State → State} (h : s.Running)
    (hok : ∀ t : State, t.Running → t.state = s.state → (onOk t).Inv) : (flushOrFault onOk s).Inv := by
  unfold flushOrFault
  rcases snkSync_cases s with ⟨_, h'⟩ | ⟨a, rest, _, h'⟩ <;> rw [h']
  · exact h.1
  · have hanswered : ({ s with snkFlush := rest, trace := .flush a :: s.trace } : State).Running := h
    cases a with
    | ok _ => exact hok _ hanswered rfl
    | err e => exact hanswered.raise (by decide : ErrCode.ioSink ≠ .none)

theorem inv_closeStep {s : State} (h : s.Running) : (closeStep s).Inv := by
  refine inv_flushOrFault h fun t ht _ => ?_
  have hclear := ht.1.error_clear ht.state_ne_fault
  obtain ⟨⟨hparams, hstorage, _⟩, _⟩ := ht
  exact inv_complete hparams hstorage (fun hready => nomatch hready) nofun hclear

/-! ## RUN -/

/-- The invariant with a RUN in flight in READY: where a command may be past its top (10_state.md R33). -/
def State.RunActive (s : State) : Prop :=
  s.Inv ∧ s.state = .ready ∧ ∃ f, s.inFlight = some f ∧ decode f.word = .ok .run

theorem State.RunActive.running {s : State} (h : s.RunActive) : s.Running := by
  obtain ⟨hinv, _, f, hf, _⟩ := h
  exact hinv.running hf

/-- RUN may go to any phase, so long as a fault that waits for its flush has a code (60_exceptions.md R255). -/
theorem State.RunActive.setPhase {s : State} {p : Phase} (h : s.RunActive)
    (hp : ∀ g, p = .faultFlush g → g.code ≠ .none) : (s.setPhase p).Inv := by
  obtain ⟨⟨hparams, hstorage, hhidden, hengine, herror, hflight⟩, hready, f, hf, hrun⟩ := h
  refine ⟨hparams, hstorage, hhidden, hengine, ⟨fun hfault => ?_, herror.2⟩, fun f' hf' => ?_⟩
  · simp [hready] at hfault
  · obtain ⟨hdone, hop, _⟩ := hflight f hf
    have hf'' : { f with phase := p } = f' := by simpa [State.setPhase, hf] using hf'
    subst hf''
    exact ⟨hdone, hop, fun _ => ⟨hrun, hready⟩, hp⟩

theorem State.RunActive.awaitFlush {s : State} {g : FaultInfo} (h : s.RunActive) (hg : g.code ≠ .none) :
    (s.setPhase (.faultFlush g)).Inv :=
  h.setPhase fun g' hg' => by cases hg'; exact hg

theorem inv_runAskMore {s : State} (h : s.RunActive) : (runAskMore s).Inv := by
  unfold runAskMore
  rcases srcHasMore_cases s with ⟨_, h'⟩ | ⟨a, rest, _, h'⟩ <;> rw [h']
  · exact h.1
  · have hanswered : ({ s with srcMore := rest, trace := .hasMore a :: s.trace } : State).RunActive := h
    rcases a with (_ | _) | e
    · exact hanswered.setPhase nofun
    · exact hanswered.setPhase nofun
    · exact hanswered.awaitFlush (by decide : ErrCode.ioSource ≠ .none)

theorem inv_runTakeByte {s : State} (h : s.RunActive) : (runTakeByte s).Inv := by
  unfold runTakeByte
  rcases srcTake_cases s with ⟨_, h'⟩ | ⟨a, rest, _, h'⟩ <;> rw [h']
  · exact h.1
  · have hanswered : ({ s with srcNext := rest, trace := .next a :: s.trace } : State).RunActive := h
    cases a with
    | ok b => exact hanswered.setPhase nofun
    | err e => exact hanswered.awaitFlush (by decide : ErrCode.ioSource ≠ .none)

theorem inv_runByteStep {s : State} (b : Byte) (h : s.RunActive) : (runByteStep b s).Inv := by
  unfold runByteStep
  split
  · exact h.running.fetchRound.1
  · next hview =>
    rcases byteStep_cases s b with ⟨_, h'⟩ | ⟨_, h'⟩ <;> rw [h']
    · exact h.awaitFlush (by decide : ErrCode.poolOverflow ≠ .none)
    · have hcommit := h.running.commitByte (by simpa using hview)
      obtain ⟨_, hready, hrun⟩ := h
      exact State.RunActive.setPhase ⟨((hcommit _ _).withDout _).1, hready, hrun⟩ nofun

theorem inv_runPutByte {s : State} (out : Byte) (h : s.RunActive) : (runPutByte out s).Inv := by
  unfold runPutByte
  rcases snkPut_cases s out with ⟨_, h'⟩ | ⟨a, rest, _, h'⟩ <;> rw [h']
  · exact h.1
  · have hanswered : ({ s with snkWrite := rest, trace := .write out a :: s.trace } : State).RunActive := h
    cases a with
    | ok _ => exact hanswered.setPhase nofun
    | err e => exact hanswered.awaitFlush (by decide : ErrCode.ioSink ≠ .none)

theorem inv_runFaultFlush {s : State} {g : FaultInfo} (h : s.Running) (hg : g.code ≠ .none) : (runFaultFlush g s).Inv := by
  unfold runFaultFlush
  rcases snkSync_cases s with ⟨_, h'⟩ | ⟨a, rest, _, h'⟩ <;> rw [h']
  · exact h.1
  · have hanswered : ({ s with snkFlush := rest, trace := .flush a :: s.trace } : State).Running := h
    exact hanswered.raise hg

/-- A fault that waits for its flush has a code. -/
theorem State.Running.pending_code {s : State} {g : FaultInfo} (h : s.Running) (hp : s.phase = .faultFlush g) :
    g.code ≠ .none := by
  obtain ⟨⟨_, _, _, _, _, hflight⟩, hbusy⟩ := h
  obtain ⟨f, hf⟩ := Option.isSome_iff_exists.mp hbusy
  obtain ⟨_, _, _, hcode⟩ := hflight f hf
  exact hcode g (by simpa [State.phase, hf] using hp)

theorem inv_runStep {s : State} (h : s.RunActive) : (runStep s).Inv := by
  unfold runStep
  cases hp : s.phase with
  | top => exact inv_runAskMore h
  | needByte => exact inv_runTakeByte h
  | haveByte b => exact inv_runByteStep b h
  | putByte out => exact inv_runPutByte out h
  | finalFlush => exact inv_flushOrFault h.running fun _ ht _ => ht.complete
  | faultFlush g => exact inv_runFaultFlush h.running (h.running.pending_code hp)

/-! ## The core's step -/

theorem le_sensSlot_of_termSlotOk {slot : Nat} (h : termSlotOk slot = true) : slot ≤ Config.sensSlot :=
  (of_decide_eq_true h).le

/-- The own step of every command keeps the invariant, once the checks of 30_encoding.md R70 have passed. -/
theorem inv_ownStep {s : State} {f : InFlight} {i : Instr} (h : s.Inv) (hf : s.inFlight = some f)
    (hdec : decode f.word = .ok i) (hlegal : legalIn i s.state = true) (hrange : operandsInRange s.wT i = true) :
    (ownStep i s).Inv := by
  have hrun : s.Running := h.running hf
  cases i with
  | nop => exact hrun.complete
  | keyClear => exact inv_keyClearStep hrun (by simpa [legalIn] using hlegal)
  | keyPush b => exact inv_keyPushStep b hrun (by simpa [legalIn] using hlegal)
  | openEnc => exact inv_openStep .encrypt hrun
  | openDec => exact inv_openStep .decrypt hrun
  | close => exact inv_closeStep hrun
  | xform => exact inv_xformStep hrun
  | run => exact inv_runStep ⟨h, by simpa [legalIn] using hlegal, f, hf, hdec⟩
  | chainNext => exact inv_chainNextStep hrun
  | bigAdd dst src len =>
    simp only [operandsInRange, Bool.and_eq_true] at hrange
    obtain ⟨⟨hdst, _⟩, _⟩ := hrange
    have hlen : (s.bigAddOf dst src len).out.length = s.wT := by
      rw [State.bigAddOf, length_addTrunc, State.slotDigits_length]
    exact ((hrun.setSlot (le_sensSlot_of_termSlotOk hdst) hlen).withResult _).complete
  | sensLoad src => exact inv_sensLoadStep src hrun
  | sensAdd src => exact inv_sensAddStep src hrun
  | sensSqfold => exact inv_sensSqfoldStep hrun
  | sensExtract dst =>
    exact ((hrun.extractSens (le_sensSlot_of_termSlotOk hrange)).withResult _).complete
  | drd slot k => exact (hrun.withResult _).complete
  | dwr slot k =>
    simp only [operandsInRange, anySlotOk, Bool.and_eq_true, decide_eq_true_eq] at hrange
    obtain ⟨hslot, hk⟩ := hrange
    exact (hrun.setDigits (h.digitsWithin.write hslot (hk.trans_le h.wT_le_wMax) _)).complete

theorem inv_exec {s t : State} {f : InFlight} {i : Instr} (h : s.Inv) (hf : s.inFlight = some f)
    (hdec : decode f.word = .ok i) (ht : exec i s = .next t) : t.Inv := by
  have hrun : s.Running := h.running hf
  rw [exec_eq_checked] at ht
  rcases checked_cases ht with ⟨_, rfl⟩ | ⟨_, _, rfl⟩ | ⟨_, _, _, rfl⟩ | ⟨_, hlegal, hrange, rfl⟩
  · exact h
  · exact hrun.raise (by decide : ErrCode.illegalState ≠ .none)
  · exact hrun.raise (by decide : ErrCode.illegalOperand ≠ .none)
  · exact inv_ownStep h hf hdec hlegal hrange

theorem inv_coreStep {s t : State} (h : s.Inv) (ht : coreStep s = .next t) : t.Inv := by
  rcases coreStep_cases s with ⟨_, h'⟩ | ⟨f, i, hf, hdec, h'⟩ | ⟨f, e, hf, _, h'⟩ <;> rw [h'] at ht
  · cases ht; exact h
  · exact inv_exec h hf hdec ht
  · have hrun : s.Running := h.running hf
    rw [if_neg hrun.state_ne_fault] at ht
    cases ht
    exact hrun.raise (by decide : ErrCode.illegalCmd ≠ .none)

/-! ## The host's accesses and the hard reset -/

/-- Reset leaves an empty key and digit space in IDLE, whatever stood there (70_reset_and_hazards.md R270). -/
theorem inv_resetBlock {s : State} (h : s.Inv) : s.resetBlock.Inv := by
  obtain ⟨⟨hpos, hlimit, _⟩, _⟩ := h
  refine ⟨⟨hpos, hlimit, Nat.zero_le _⟩, ⟨rfl, rfl, fun _ _ => rfl, fun _ ha => absurd rfl ha⟩,
    ⟨Nat.mod_lt _ (by positivity), Nat.mod_lt _ (by positivity)⟩, ?_, ⟨?_, fun _ => ⟨rfl, rfl, rfl⟩⟩, ?_⟩
  · intro hready
    simp at hready
  · intro hfault
    simp at hfault
  · intro f hf
    simp at hf

/-- DONE may fall at any time: the invariant only ever asks it to be 0. -/
theorem inv_clearStatus {s : State} (h : s.Inv) (v : Word) : (s.clearStatus v).Inv := by
  obtain ⟨hparams, hstorage, hhidden, hengine, ⟨hfault, hclear⟩, hflight⟩ := h
  have hdone : s.done = false → (s.clearStatus v).done = false := fun hd => by simp [State.clearStatus, hd]
  refine ⟨hparams, hstorage, hhidden, hengine, ⟨fun hst => ?_, hclear⟩, fun f hf => ?_⟩
  · obtain ⟨herr, hnone, hd⟩ := hfault hst
    exact ⟨herr, hnone, hdone hd⟩
  · obtain ⟨hd, hrest⟩ := hflight f hf
    exact ⟨hdone hd, hrest⟩

/-- A command accepted outside FAULT is at its top with DONE cleared and LASTOP set (30_encoding.md R70). -/
theorem inv_accept {s : State} (h : s.Inv) (hst : s.state ≠ .fault) (w : Word) : (s.accept w).Inv := by
  obtain ⟨hparams, hstorage, hhidden, hengine, ⟨_, hclear⟩, _⟩ := h
  refine ⟨hparams, hstorage, hhidden, hengine, ⟨fun hfault => absurd hfault hst, hclear⟩, fun f hf => ?_⟩
  have hf' : (⟨w, s.din, .top⟩ : InFlight) = f := by simpa using hf
  subst hf'
  exact ⟨rfl, rfl, fun hne => absurd rfl hne, nofun⟩

theorem inv_deliverCommand {s : State} (h : s.Inv) (w : Word) : (s.deliverCommand w).Inv := by
  rcases deliverCommand_cases s w with ⟨_, h'⟩ | ⟨_, _, h'⟩ | ⟨hst, _, h'⟩ <;> rw [h']
  · exact h
  · exact h
  · exact inv_accept h hst w

theorem inv_writeCtrl {s : State} (h : s.Inv) (v : Word) : (s.writeCtrl v).Inv := by
  unfold State.writeCtrl
  split
  · exact inv_resetBlock h
  · exact h

theorem inv_hostWrite {s : State} (h : s.Inv) (off : Nat) (v : Word) : (s.hostWrite off v).Inv := by
  rcases hostWrite_cases s off v with ⟨_, h'⟩ | ⟨_, h'⟩ | ⟨_, h'⟩ | ⟨_, h'⟩ | ⟨_, h'⟩ <;> rw [h']
  · exact inv_writeCtrl h v
  · exact inv_clearStatus h v
  · exact inv_deliverCommand h v
  · exact h
  · exact h

theorem inv_hostRead {s : State} (h : s.Inv) (off : Nat) : (s.hostRead off).Inv := by
  unfold State.hostRead
  split
  · exact h
  · exact h

theorem hostReadAccess_next {width addr : Nat} {s t : State} (h : hostReadAccess width addr s = .next t) :
    ∃ off, windowOffset s.base width addr = .next off ∧ t = s.hostRead off := by
  unfold hostReadAccess at h
  split at h
  · next off hoff => cases h; exact ⟨off, hoff, rfl⟩
  · cases h
  · cases h

theorem hostWriteAccess_next {width addr : Nat} {v : Word} {s t : State} (h : hostWriteAccess width addr v s = .next t) :
    ∃ off, windowOffset s.base width addr = .next off ∧ t = s.hostWrite off v := by
  unfold hostWriteAccess at h
  split at h
  · next off hoff => cases h; exact ⟨off, hoff, rfl⟩
  · cases h
  · cases h

theorem inv_hostPoll {s t : State} (h : s.Inv) (ht : hostPoll s = .next t) : t.Inv := by
  unfold hostPoll at ht
  split at ht
  · exact inv_coreStep (s := { s with events := .hostWait :: s.events }) h ht
  · cases ht; exact h

/-! ## Every move -/

theorem inv_takeMove {ev : Event} {s t : State} (h : s.Inv) (ht : takeMove ev s = .next t) : t.Inv := by
  cases ev with
  | core => exact inv_coreStep h ht
  | host op =>
    cases op with
    | read width addr =>
      obtain ⟨off, _, rfl⟩ := hostReadAccess_next ht
      exact inv_hostRead h off
    | write width addr v =>
      obtain ⟨off, _, rfl⟩ := hostWriteAccess_next ht
      exact inv_hostWrite h off v
  | hostWait => exact inv_hostPoll h ht
  | hardReset => cases ht; exact inv_resetBlock h

/-- Settles O25. Taking a move off the list changes no field the invariant speaks of, so the moves' lemmas apply. -/
theorem stepKeepsInvariant : Obligations.StepKeepsInvariant := by
  intro s t h ht
  unfold step at ht
  split at ht
  · exact inv_coreStep h ht
  · next rest _ => exact inv_takeMove (s := { s with events := rest }) h ht

end Sys2Proof.Machine
end

section
/-! PROOFS. The block's state as the host sees it (10_state.md): the register map (R34 to R47), what its reads hide (R22, R25),
reset (R49), and what no step may do to DONE and to the build's parameters (R35, R48). -/

namespace Sys2Proof.Machine

/-! ## One step, move by move -/

/-- The six ways a step answers a next state (45_host_and_diag.md R225): the core's move, which is also what a waiting host's
move is while BUSY, or one of the other agents' moves, taken off the list. -/
inductive StepMove (s t : State) : Prop
  | core (evs : List Event) (hhead : s.events.head? ∈ [none, some .core, some .hostWait])
      (hcore : coreStep { s with events := evs } = .next t)
  | hostRead (width addr off : Nat) (rest : List Event) (hev : s.events = .host (.read width addr) :: rest)
      (hoff : windowOffset s.base width addr = .next off) (ht : t = ({ s with events := rest } : State).hostRead off)
  | hostWrite (width addr off : Nat) (v : Word) (rest : List Event) (hev : s.events = .host (.write width addr v) :: rest)
      (hoff : windowOffset s.base width addr = .next off) (ht : t = ({ s with events := rest } : State).hostWrite off v)
  | pollEnds (rest : List Event) (hev : s.events = .hostWait :: rest) (hbusy : s.busy = false)
      (ht : t = { s with events := rest, rdata := some s.statusWord })
  | hardReset (rest : List Event) (hev : s.events = .hardReset :: rest)
      (ht : t = ({ s with events := rest } : State).resetBlock)

theorem hostPoll_cases (s : State) :
    (s.busy = true ∧ hostPoll s = coreStep { s with events := .hostWait :: s.events }) ∨
      (s.busy = false ∧ hostPoll s = .next { s with rdata := some s.statusWord }) := by
  unfold hostPoll
  cases hb : s.busy with
  | true => exact .inl ⟨rfl, rfl⟩
  | false => exact .inr ⟨rfl, rfl⟩

theorem step_cons {s : State} {ev : Event} {rest : List Event} (hev : s.events = ev :: rest) :
    step s = takeMove ev { s with events := rest } := by
  unfold step
  rw [hev]

theorem step_nil {s : State} (hev : s.events = []) : step s = coreStep s := by
  unfold step
  rw [hev]

theorem step_move {s t : State} (h : step s = .next t) : StepMove s t := by
  cases hev : s.events with
  | nil => exact .core s.events (by simp [hev]) (step_nil hev ▸ h)
  | cons ev rest =>
    rw [step_cons hev] at h
    cases ev with
    | core => exact .core rest (by simp [hev]) h
    | host op =>
      cases op with
      | read width addr =>
        obtain ⟨off, hoff, ht⟩ := hostReadAccess_next h
        exact .hostRead width addr off rest hev hoff ht
      | write width addr v =>
        obtain ⟨off, hoff, ht⟩ := hostWriteAccess_next h
        exact .hostWrite width addr off v rest hev hoff ht
    | hostWait =>
      change hostPoll { s with events := rest } = .next t at h
      rcases hostPoll_cases { s with events := rest } with ⟨_, h'⟩ | ⟨hbusy, h'⟩ <;> rw [h'] at h
      · exact .core (.hostWait :: rest) (by simp [hev]) h
      · exact .pollEnds rest hev hbusy (Host.Outcome.next.inj h).symm
    | hardReset => exact .hardReset rest hev (Host.Outcome.next.inj h).symm

/-! ## The build's parameters (R35) -/

/-- The parameters of the build and the platform stand as they were: M_MAX, BASE, INIT_VIEW. -/
def SameParams (s t : State) : Prop := t.mMax = s.mMax ∧ t.base = s.base ∧ t.initView = s.initView

theorem SameParams.refl (s : State) : SameParams s s := ⟨rfl, rfl, rfl⟩

theorem HostSideSame.sameParams {s t : State} (h : HostSideSame s t) : SameParams s t := ⟨h.mMax, h.base, h.initView⟩

theorem hostSide_coreStep {s t : State} (h : coreStep s = .next t) : HostSideSame s t := by
  obtain ⟨u, hu, hsame⟩ := coreStep_next s
  cases hu.symm.trans h
  exact hsame

theorem sameParams_resetBlock (s : State) : SameParams s s.resetBlock := ⟨rfl, rfl, rfl⟩

theorem sameParams_hostRead (s : State) (off : Nat) : SameParams s (s.hostRead off) := by
  unfold State.hostRead
  split <;> exact ⟨rfl, rfl, rfl⟩

/-- A write to CTRL resets the block or sets the enables (10_state.md R36). -/
theorem writeCtrl_cases (s : State) (v : Word) :
    (v.getLsbD 0 = true ∧ s.writeCtrl v = s.resetBlock) ∨
      (v.getLsbD 0 = false ∧ s.writeCtrl v = { s with ieDone := v.getLsbD 1, ieFault := v.getLsbD 2 }) := by
  unfold State.writeCtrl
  cases v.getLsbD 0 with
  | true => exact .inl ⟨rfl, rfl⟩
  | false => exact .inr ⟨rfl, rfl⟩

theorem sameParams_writeCtrl (s : State) (v : Word) : SameParams s (s.writeCtrl v) := by
  rcases writeCtrl_cases s v with ⟨_, h⟩ | ⟨_, h⟩ <;> rw [h]
  · exact sameParams_resetBlock s
  · exact ⟨rfl, rfl, rfl⟩

theorem sameParams_deliverCommand (s : State) (w : Word) : SameParams s (s.deliverCommand w) := by
  rcases deliverCommand_cases s w with ⟨_, h⟩ | ⟨_, _, h⟩ | ⟨_, _, h⟩ <;> rw [h] <;> exact ⟨rfl, rfl, rfl⟩

theorem sameParams_hostWrite (s : State) (off : Nat) (v : Word) : SameParams s (s.hostWrite off v) := by
  rcases hostWrite_cases s off v with ⟨_, h⟩ | ⟨_, h⟩ | ⟨_, h⟩ | ⟨_, h⟩ | ⟨_, h⟩ <;> rw [h]
  · exact sameParams_writeCtrl s v
  · exact ⟨rfl, rfl, rfl⟩
  · exact sameParams_deliverCommand s v
  · exact ⟨rfl, rfl, rfl⟩
  · exact .refl s

/-- Settles O23. -/
theorem parametersNeverChange : Obligations.ParametersNeverChange := by
  intro s t h
  cases step_move h with
  | core evs _ hcore => exact (hostSide_coreStep hcore).sameParams
  | hostRead width addr off rest _ _ ht => subst ht; exact sameParams_hostRead { s with events := rest } off
  | hostWrite width addr off v rest _ _ ht => subst ht; exact sameParams_hostWrite { s with events := rest } off v
  | pollEnds rest _ _ ht => subst ht; exact ⟨rfl, rfl, rfl⟩
  | hardReset rest _ ht => subst ht; exact sameParams_resetBlock { s with events := rest }

/-! ## DONE rises only where a command completes (R48, 30_encoding.md R70) -/

/-- DONE and STATE stand as they were: what holds along a command until it ends. -/
def SameProgress (s t : State) : Prop := t.done = s.done ∧ t.state = s.state

theorem OnlyDigits.sameProgress {s t : State} (h : OnlyDigits s t) : SameProgress s t := by
  unfold OnlyDigits at h
  rw [h]
  exact ⟨rfl, rfl⟩

theorem sameProgress_fetchRound (s : State) : SameProgress s s.fetchRound := by
  rcases fetchRound_cases s with ⟨_, h⟩ | ⟨_, h⟩ <;> rw [h] <;> exact ⟨rfl, rfl⟩

theorem sameProgress_byteStep {s t : State} {b out : Byte} (h : s.byteStep b = .ok (t, out)) : SameProgress s t := by
  rcases byteStep_cases s b with ⟨_, h'⟩ | ⟨_, h'⟩ <;> rw [h'] at h
  · cases h
  · cases h
    exact ⟨rfl, rfl⟩

/-- DONE is as it was, or `t` is some state outside FAULT with its command completed. -/
def DoneKeptOrCompleted (s t : State) : Prop := t.done = s.done ∨ ∃ u : State, u.state ≠ .fault ∧ t = u.complete

theorem doneKept_complete {s u : State} (hu : u.state ≠ .fault) : DoneKeptOrCompleted s u.complete := .inr ⟨u, hu, rfl⟩

theorem SameProgress.state_ne_fault {s t : State} (h : SameProgress s t) (hs : s.state ≠ .fault) : t.state ≠ .fault :=
  h.2 ▸ hs

theorem doneKept_flushOrFault {s : State} {onOk : State → State}
    (hok : ∀ t, SameProgress s t → DoneKeptOrCompleted s (onOk t)) : DoneKeptOrCompleted s (flushOrFault onOk s) := by
  unfold flushOrFault
  rcases snkSync_cases s with ⟨_, h⟩ | ⟨a, rest, _, h⟩ <;> rw [h]
  · exact .inl rfl
  · cases a with
    | ok _ => exact hok _ ⟨rfl, rfl⟩
    | err e => exact .inl rfl

theorem doneKept_openStep (mode : Mode) (s : State) : DoneKeptOrCompleted s (openStep mode s) := by
  have hseed : SameProgress s s.zeroSlots.seed.1 := ((onlyDigits_zeroSlots s).trans (onlyDigits_seed _)).sameProgress
  rcases openStep_cases mode s with ⟨_, h⟩ | ⟨f, _, _, h⟩ | ⟨_, _, h⟩ <;> rw [h]
  · exact .inl rfl
  · exact .inl hseed.1
  · exact doneKept_complete (by simp)

theorem doneKept_xformStep {s : State} (hs : s.state ≠ .fault) : DoneKeptOrCompleted s (xformStep s) := by
  unfold xformStep
  split
  · exact .inl (sameProgress_fetchRound s).1
  · split
    · exact .inl rfl
    · next hbyte => exact doneKept_complete ((sameProgress_byteStep hbyte).state_ne_fault hs)

theorem doneKept_chainNextStep {s : State} (hs : s.state ≠ .fault) : DoneKeptOrCompleted s (chainNextStep s) := by
  unfold chainNextStep
  split
  · exact .inl (sameProgress_fetchRound s).1
  · exact doneKept_complete ((sameProgress_fetchRound s).state_ne_fault hs)

/-- RUN sets DONE only at the flush that ends it (44_xform_engine.md R195). -/
theorem doneKept_runStep {s : State} (hs : s.state ≠ .fault) : DoneKeptOrCompleted s (runStep s) := by
  unfold runStep
  cases s.phase with
  | top =>
    dsimp only [runAskMore]
    rcases srcHasMore_cases s with ⟨_, h⟩ | ⟨a, rest, _, h⟩ <;> rw [h]
    · exact .inl rfl
    · rcases a with (_ | _) | e <;> exact .inl rfl
  | needByte =>
    dsimp only [runTakeByte]
    rcases srcTake_cases s with ⟨_, h⟩ | ⟨a, rest, _, h⟩ <;> rw [h]
    · exact .inl rfl
    · cases a <;> exact .inl rfl
  | haveByte b =>
    dsimp only [runByteStep]
    split
    · exact .inl (sameProgress_fetchRound s).1
    · split
      · exact .inl rfl
      · next hbyte => exact .inl (sameProgress_byteStep hbyte).1
  | putByte out =>
    dsimp only [runPutByte]
    rcases snkPut_cases s out with ⟨_, h⟩ | ⟨a, rest, _, h⟩ <;> rw [h]
    · exact .inl rfl
    · cases a <;> exact .inl rfl
  | finalFlush => exact doneKept_flushOrFault fun t ht => doneKept_complete (ht.state_ne_fault hs)
  | faultFlush f =>
    dsimp only [runFaultFlush]
    rcases snkSync_cases s with ⟨_, h⟩ | ⟨a, rest, _, h⟩ <;> rw [h] <;> exact .inl rfl

theorem doneKept_ownStep (i : Instr) {s : State} (hs : s.state ≠ .fault) : DoneKeptOrCompleted s (ownStep i s) := by
  cases i with
  | openEnc => exact doneKept_openStep _ s
  | openDec => exact doneKept_openStep _ s
  | close => exact doneKept_flushOrFault fun t _ => doneKept_complete nofun
  | xform => exact doneKept_xformStep hs
  | run => exact doneKept_runStep hs
  | chainNext => exact doneKept_chainNextStep hs
  | keyPush b =>
    dsimp only [ownStep, keyPushStep]
    split
    · exact .inl rfl
    · exact doneKept_complete hs
  | sensLoad src =>
    dsimp only [ownStep, sensLoadStep]
    split
    · exact .inl rfl
    · next hload => exact doneKept_complete ((onlyDigits_loadSens hload).sameProgress.state_ne_fault hs)
  | sensAdd src =>
    dsimp only [ownStep, sensAddStep]
    split
    · exact .inl rfl
    · next hadd => exact doneKept_complete ((onlyDigits_addSens hadd).sameProgress.state_ne_fault hs)
  | sensSqfold =>
    dsimp only [ownStep, sensSqfoldStep]
    split
    · exact .inl rfl
    · exact doneKept_complete hs
  | nop => exact doneKept_complete hs
  | keyClear => exact doneKept_complete hs
  | bigAdd dst src len => exact doneKept_complete hs
  | sensExtract dst => exact doneKept_complete hs
  | drd slot k => exact doneKept_complete hs
  | dwr slot k => exact doneKept_complete hs

theorem doneKept_exec {i : Instr} {s t : State} (h : exec i s = .next t) : DoneKeptOrCompleted s t := by
  rw [exec_eq_checked] at h
  rcases checked_cases h with ⟨_, rfl⟩ | ⟨_, _, rfl⟩ | ⟨_, _, _, rfl⟩ | ⟨hs, _, _, rfl⟩
  · exact .inl rfl
  · exact .inl rfl
  · exact .inl rfl
  · exact doneKept_ownStep i hs

/-- The core's step changes nothing with no command in flight; else it keeps DONE or completes the command. -/
theorem done_coreStep_cases {s t : State} (h : coreStep s = .next t) :
    t = s ∨ (s.busy = true ∧ DoneKeptOrCompleted s t) := by
  rcases coreStep_cases s with ⟨_, h'⟩ | ⟨f, i, hf, _, h'⟩ | ⟨f, e, hf, _, h'⟩ <;> rw [h'] at h
  · exact .inl (Host.Outcome.next.inj h).symm
  · exact .inr ⟨by simp [State.busy, hf], doneKept_exec h⟩
  · refine .inr ⟨by simp [State.busy, hf], .inl ?_⟩
    rw [← Host.Outcome.next.inj h]
    split <;> rfl

@[simp] theorem done_hostRead (s : State) (off : Nat) : (s.hostRead off).done = s.done := by
  unfold State.hostRead
  split <;> rfl

/-- No host write sets DONE: it can only clear it. -/
theorem done_of_hostWrite {s : State} {off : Nat} {v : Word} (h : (s.hostWrite off v).done = true) : s.done = true := by
  rcases hostWrite_cases s off v with ⟨_, h'⟩ | ⟨_, h'⟩ | ⟨_, h'⟩ | ⟨_, h'⟩ | ⟨_, h'⟩ <;> rw [h'] at h
  · rcases writeCtrl_cases s v with ⟨_, h'⟩ | ⟨_, h'⟩ <;> rw [h'] at h
    · cases h
    · exact h
  · exact Bool.and_elim_left h
  · rcases deliverCommand_cases s v with ⟨_, h'⟩ | ⟨_, _, h'⟩ | ⟨_, _, h'⟩ <;> rw [h'] at h
    · exact h
    · exact h
    · cases h
  · exact h
  · exact h

/-- Settles O22: of the moves only the core's can set DONE, and it does so only by completing the command in flight. -/
theorem doneMeansCommandCompleted : Obligations.DoneMeansCommandCompleted := by
  intro s t h hdone hdone'
  have hrises : t.done ≠ s.done := by simp [hdone, hdone']
  cases step_move h with
  | core evs _ hcore =>
    rcases done_coreStep_cases hcore with rfl | ⟨hbusy, hkept | ⟨u, hu, rfl⟩⟩
    · exact absurd rfl hrises
    · exact absurd hkept hrises
    · exact ⟨hbusy, rfl, hu⟩
  | hostRead width addr off rest _ _ ht => subst ht; exact absurd (done_hostRead _ off) hrises
  | hostWrite width addr off v rest _ _ ht =>
    subst ht
    exact absurd (done_of_hostWrite hdone') (by simp [hdone])
  | pollEnds rest _ _ ht => subst ht; exact absurd rfl hrises
  | hardReset rest _ ht => subst ht; cases hdone'

/-! ## Reset (R49, 70_reset_and_hazards.md R270) -/

/-- Settles O8: the key and the digit space are empty memories, which read 0 everywhere. -/
theorem resetStateHasResetValues : Obligations.ResetStateHasResetValues := by
  refine ⟨Memory.read_nil, ?_, Memory.read_nil, ?_⟩ <;> decide

/-- Of the fields `AtResetValues` speaks of, `resetBlock` leaves each as in the reset state. -/
theorem resetBlock_atResetValues (s : State) : s.resetBlock.AtResetValues := resetStateHasResetValues

theorem windowOffset_register (base off : Nat) (hoff : off % 4 = 0) (hlt : off < Config.windowBytes) :
    windowOffset base 4 (base + off) = .next off :=
  windowOffset_next_iff.mpr ⟨by omega, by omega, rfl, by omega, by omega⟩

/-- A host write to the register at an offset of the window. -/
theorem step_hostWrite {s : State} {off : Nat} {v : Word} {rest : List Event}
    (hev : s.events = .host (.write 4 (s.base + off) v) :: rest) (hoff : off % 4 = 0) (hlt : off < Config.windowBytes) :
    step s = .next (({ s with events := rest } : State).hostWrite off v) := by
  rw [step_cons hev]
  change hostWriteAccess 4 (s.base + off) v { s with events := rest } = _
  unfold hostWriteAccess
  rw [windowOffset_register s.base off hoff hlt]

/-- Hard or soft, a reset that is next is the one operation `resetBlock`, with the move taken off. -/
theorem step_reset {s : State} {ev : Event} {rest : List Event} (hev : s.events = ev :: rest) (hreset : s.ResetIsNext) :
    step s = .next ({ s with events := rest } : State).resetBlock := by
  rcases hreset with hhard | ⟨v, hsoft, hsrst⟩
  · obtain rfl : ev = .hardReset := by simpa [hev] using hhard
    rw [step_cons hev]
    rfl
  · obtain rfl : ev = .host (.write 4 (s.base + 0x08) v) := by simpa [hev] using hsoft
    rw [step_hostWrite hev (by decide) (by decide)]
    exact congrArg _ (if_pos hsrst)

/-- Settles O9. -/
theorem resetMoveGivesResetValues : Obligations.ResetMoveGivesResetValues := by
  intro s ev rest hev hreset
  exact ⟨_, step_reset hev hreset, resetBlock_atResetValues _, rfl⟩

/-- Settles O27: nothing is stored, in flight or on the ports' record, and the hidden buffers are 0. -/
theorem resetMeetsInvariants : Obligations.ResetMeetsInvariants := by
  have hparams : State.reset.ParamsOk := ⟨by decide, by decide, by decide⟩
  have hstorage : State.reset.StorageOk := ⟨rfl, rfl, fun _ _ => rfl, fun _ ha => absurd rfl ha⟩
  have hhidden : State.reset.HiddenOk := ⟨Nat.pow_pos (by decide), Nat.pow_pos (by decide)⟩
  have herror : State.reset.ErrorOk := ⟨nofun, fun _ => ⟨rfl, rfl, rfl⟩⟩
  exact ⟨⟨hparams, hstorage, hhidden, nofun, herror, nofun⟩, trivial, nofun, nofun, nofun⟩

/-! ## What a host read hides (R22, R25, 45_host_and_diag.md R221) -/

/-- No register is a function of the key, the digit space or the hidden buffers. -/
theorem register_hides_storage (s : State) (key digits : Memory) (acc scr off : Nat) :
    ({ s with key := key, digits := digits, acc := acc, scr := scr } : State).register off = s.register off := rfl

/-- Settles O17: nor is BUSY, which decides whether the register's value is shown. -/
theorem hostReadsHideStorage : Obligations.HostReadsHideStorage := by
  intro s key digits acc scr off
  have hreg := register_hides_storage s key digits acc scr off
  have hbusy : ({ s with key := key, digits := digits, acc := acc, scr := scr } : State).busy = s.busy := rfl
  unfold State.hostRead
  rw [hreg, hbusy]
  split <;> rfl

/-! ## The register map (R34 to R47) -/

theorem toNat_paramWord {s : State} (h : s.mMax < 65536) : s.paramWord.toNat = s.mMax + 10 * 2 ^ 16 + 11 * 2 ^ 24 := by
  simp only [State.paramWord, toNat_append_eq, Config.ring, Config.padding, BitVec.toNat_ofNat]
  omega

theorem toNat_ctrlWord (s : State) : s.ctrlWord.toNat = 2 * s.ieDone.toNat + 4 * s.ieFault.toNat := by
  simp only [State.ctrlWord, toNat_append_eq, BitVec.toNat_ofBool, BitVec.toNat_ofNat]
  omega

theorem toNat_statusWord (s : State) :
    s.statusWord.toNat =
      s.state.code.toNat + 8 * s.busy.toNat + 16 * s.done.toNat + 32 * s.ovr.toNat + 64 * s.mode.bit.toNat +
        256 * s.lastOp.toNat := by
  simp only [State.statusWord, toNat_append_eq, BitVec.toNat_ofBool, BitVec.toNat_ofNat]
  omega

/-- A 64-bit register read as its two halves. -/
theorem toNat_halves (x : BitVec 64) : (x.extractLsb' 0 32).toNat + 2 ^ 32 * (x.extractLsb' 32 32).toNat = x.toNat := by
  have hx := x.isLt
  rw [BitVec.extractLsb'_toNat, BitVec.extractLsb'_toNat, Nat.shiftRight_eq_div_pow, Nat.shiftRight_eq_div_pow]
  omega

/-- VIEW_OFF where its difference is not negative and fits (R45). -/
theorem toNat_viewOff {s : State} (hview : s.viewLen.toNat ≤ s.m + 10) (hwide : s.m + 10 < 65536) :
    s.viewOff.toNat = s.m + 10 - s.viewLen.toNat := by
  have hwT : s.wT = s.m + 10 := rfl
  unfold State.viewOff
  rw [if_neg (by omega), BitVec.toNat_ofNat, hwT]
  omega

theorem toNat_viewPos {s : State} (hview : s.viewLen.toNat ≤ s.m + 10) (hwide : s.m + 10 < 65536) :
    (s.register 0x3C).toNat = s.e.val + 2 ^ 16 * (s.m + 10 - s.viewLen.toNat) := by
  have he := s.e.isLt
  change (s.viewOff ++ 0#12 ++ BitVec.ofNat 4 s.e.val).toNat = _
  simp only [toNat_append_eq, BitVec.toNat_ofNat, toNat_viewOff hview hwide]
  omega

theorem toNat_viewState (s : State) : (s.register 0x38).toNat = s.viewLen.toNat + 2 ^ 16 * s.viewCur.toNat := by
  change (s.viewCur ++ s.viewLen).toNat = _
  rw [toNat_append_eq]
  omega

/-- The reserved offsets past the last register read 0 (20_memory.md R58). -/
theorem register_reserved (s : State) {off : Nat} (h : 0x50 ≤ off) : s.register off = 0 := by
  obtain ⟨k, rfl⟩ := Nat.exists_eq_add_of_le' h
  rfl

/-- A register narrower than 32 bits is read zero-extended. -/
theorem toNat_zext {n : Nat} (x : BitVec n) (h : n ≤ 32) : (x.setWidth 32).toNat = x.toNat := BitVec.toNat_setWidth_of_le h

/-- Settles O14. -/
theorem registerMapLayout : Obligations.RegisterMapLayout := by
  intro s hmax
  refine ⟨rfl, toNat_paramWord hmax, toNat_ctrlWord s, ?status, rfl, toNat_zext s.din (by decide),
    toNat_zext s.dout (by decide), rfl, ?err, rfl, rfl, toNat_zext s.keyLen (by decide), toNat_halves s.n,
    toNat_viewState s, toNat_viewPos, toNat_zext s.j (by decide), toNat_zext s.prev (by decide), toNat_halves s.pool,
    fun off h => congrArg BitVec.toNat (register_reserved s h)⟩
  case status =>
    refine (toNat_statusWord s).trans ?_
    cases s.state <;> cases s.mode <;> rfl
  case err =>
    refine (toNat_zext s.err.value (by decide)).trans ?_
    cases s.err <;> rfl

end Sys2Proof.Machine
end

section
/-! PROOFS. The order of the port transactions (20_memory.md R55, R66, 45_host_and_diag.md R227, R228).

A step either makes no port transaction and leaves the command at its phase or ends it (`PortsQuiet`), or makes one transaction
of RUN or CLOSE, which its phase allows (`Phase.Fits`). -/

namespace Sys2Proof.Machine

/-! ## What the phase asks of the newest transaction -/

/-- The phase fits the newest port transaction: the phase's part of `State.PortInv`. -/
def Phase.Fits (trace : List PortEvent) : Phase → Prop
  | .needByte => trace.head? = some (.hasMore (.ok true))
  | .haveByte b => trace.head? = some (.next (.ok b))
  | .putByte _ => ∃ b, trace.head? = some (.next (.ok b))
  | .top | .finalFlush | .faultFlush _ => True

theorem State.portInv_iff (s : State) : s.PortInv ↔ PortsOrdered s.trace ∧ s.phase.Fits s.trace := by
  unfold State.PortInv
  cases s.phase <;> simp [Phase.Fits]

theorem State.PortInv.ordered {s : State} (h : s.PortInv) : PortsOrdered s.trace := h.1

theorem State.PortInv.fits {s : State} {p : Phase} (h : s.PortInv) (hp : s.phase = p) : p.Fits s.trace :=
  hp ▸ (s.portInv_iff.mp h).2

theorem State.phase_of_idle {s : State} (h : s.inFlight = none) : s.phase = .top := by
  simp [State.phase, h]

theorem State.phase_congr {s t : State} (h : t.inFlight = s.inFlight) : t.phase = s.phase := by
  simp only [State.phase, h]

/-- With nothing in flight only the order of the trace is asked for. -/
theorem portInv_of_idle {s : State} (htrace : PortsOrdered s.trace) (hidle : s.inFlight = none) : s.PortInv :=
  s.portInv_iff.mpr ⟨htrace, by rw [State.phase_of_idle hidle]; trivial⟩

/-- The command in flight, if there is one, goes to a phase that fits the trace. -/
theorem portInv_setPhase {s : State} {p : Phase} (htrace : PortsOrdered s.trace) (hp : p.Fits s.trace) :
    (s.setPhase p).PortInv := by
  cases hf : s.inFlight with
  | none => exact portInv_of_idle htrace (by simp [State.setPhase, hf])
  | some f =>
    have hphase : (s.setPhase p).phase = p := by simp [State.setPhase, State.phase, hf]
    exact (State.portInv_iff _).mpr ⟨htrace, by rw [hphase]; exact hp⟩

/-! ## Steps without a port transaction -/

/-- No port transaction is made, and the command in flight stays at its phase or ends. -/
def PortsQuiet (s t : State) : Prop := t.trace = s.trace ∧ (t.inFlight = s.inFlight ∨ t.inFlight = none)

theorem PortsQuiet.refl (s : State) : PortsQuiet s s := ⟨rfl, .inl rfl⟩

theorem PortsQuiet.portInv {s t : State} (h : PortsQuiet s t) (hs : s.PortInv) : t.PortInv := by
  obtain ⟨htrace, hflight⟩ := h
  obtain ⟨hordered, hfits⟩ := s.portInv_iff.mp hs
  rw [← htrace] at hordered hfits
  rcases hflight with hsame | hidle
  · exact t.portInv_iff.mpr ⟨hordered, State.phase_congr hsame ▸ hfits⟩
  · exact portInv_of_idle hordered hidle

theorem portsQuiet_complete {s u : State} (h : u.trace = s.trace) : PortsQuiet s u.complete := ⟨h, .inr rfl⟩

theorem portsQuiet_raise {s u : State} (h : u.trace = s.trace) (f : FaultInfo) : PortsQuiet s (u.raise f) := ⟨h, .inr rfl⟩

theorem OnlyDigits.trace_eq {s t : State} (h : OnlyDigits s t) : t.trace = s.trace := by
  unfold OnlyDigits at h
  rw [h]

theorem portsQuiet_fetchRound (s : State) : PortsQuiet s s.fetchRound := by
  rcases fetchRound_cases s with ⟨_, h⟩ | ⟨_, h⟩ <;> rw [h] <;> exact ⟨rfl, .inl rfl⟩

theorem trace_byteStep {s t : State} {b out : Byte} (h : s.byteStep b = .ok (t, out)) : t.trace = s.trace := by
  rcases byteStep_cases s b with ⟨_, h'⟩ | ⟨_, h'⟩ <;> rw [h'] at h <;> cases h
  rfl

theorem portsQuiet_openStep (mode : Mode) (s : State) : PortsQuiet s (openStep mode s) := by
  have hseed : s.zeroSlots.seed.1.trace = s.trace := ((onlyDigits_zeroSlots s).trans (onlyDigits_seed _)).trace_eq
  rcases openStep_cases mode s with ⟨_, h⟩ | ⟨f, _, _, h⟩ | ⟨_, _, h⟩ <;> rw [h]
  · exact portsQuiet_raise rfl _
  · exact portsQuiet_raise hseed f
  · exact portsQuiet_complete hseed

theorem portsQuiet_xformStep (s : State) : PortsQuiet s (xformStep s) := by
  unfold xformStep
  split
  · exact portsQuiet_fetchRound s
  · split
    · exact portsQuiet_raise rfl _
    · next t out hbyte =>
      have htrace : t.trace = s.trace := trace_byteStep hbyte
      exact portsQuiet_complete htrace

theorem portsQuiet_chainNextStep (s : State) : PortsQuiet s (chainNextStep s) := by
  unfold chainNextStep
  split
  · exact portsQuiet_fetchRound s
  · exact portsQuiet_complete (portsQuiet_fetchRound s).1

/-- Only RUN and CLOSE make port transactions (45_host_and_diag.md R225). -/
theorem portsQuiet_ownStep {i : Instr} (hrun : i ≠ .run) (hclose : i ≠ .close) (s : State) :
    PortsQuiet s (ownStep i s) := by
  cases i with
  | run => exact absurd rfl hrun
  | close => exact absurd rfl hclose
  | openEnc => exact portsQuiet_openStep _ s
  | openDec => exact portsQuiet_openStep _ s
  | xform => exact portsQuiet_xformStep s
  | chainNext => exact portsQuiet_chainNextStep s
  | keyPush b =>
    dsimp only [ownStep, keyPushStep]
    split
    · exact portsQuiet_raise rfl _
    · exact portsQuiet_complete rfl
  | sensLoad src =>
    dsimp only [ownStep, sensLoadStep]
    split
    · exact portsQuiet_raise rfl _
    · next hload => exact portsQuiet_complete (onlyDigits_loadSens hload).trace_eq
  | sensAdd src =>
    dsimp only [ownStep, sensAddStep]
    split
    · exact portsQuiet_raise rfl _
    · next hadd => exact portsQuiet_complete (onlyDigits_addSens hadd).trace_eq
  | sensSqfold =>
    dsimp only [ownStep, sensSqfoldStep]
    split
    · exact portsQuiet_raise rfl _
    · exact portsQuiet_complete rfl
  | nop => exact portsQuiet_complete rfl
  | keyClear => exact portsQuiet_complete rfl
  | bigAdd dst src len => exact portsQuiet_complete rfl
  | sensExtract dst => exact portsQuiet_complete rfl
  | drd slot k => exact portsQuiet_complete rfl
  | dwr slot k => exact portsQuiet_complete rfl

/-! ## The transactions of RUN and CLOSE -/

/-- A flush may follow any transaction; whatever it answers, the command ends (44_xform_engine.md R195, R197). -/
theorem portInv_flushOrFault {s : State} {onOk : State → State} (h : s.PortInv)
    (hok : ∀ t, PortsOrdered t.trace → (onOk t).PortInv) : (flushOrFault onOk s).PortInv := by
  have hordered := h.ordered
  unfold flushOrFault
  rcases snkSync_cases s with ⟨_, h'⟩ | ⟨a, rest, _, h'⟩ <;> rw [h']
  · exact h
  · cases a with
    | ok _ => exact hok _ hordered
    | err e => exact portInv_of_idle hordered rfl

theorem portInv_runFaultFlush {s : State} (h : s.PortInv) (g : FaultInfo) : (runFaultFlush g s).PortInv := by
  have hordered := h.ordered
  unfold runFaultFlush
  rcases snkSync_cases s with ⟨_, h'⟩ | ⟨a, rest, _, h'⟩ <;> rw [h']
  · exact h
  · exact portInv_of_idle hordered rfl

/-- Only the answer true leads to the phase that takes a byte. -/
theorem portInv_runAskMore {s : State} (h : s.PortInv) : (runAskMore s).PortInv := by
  have hordered := h.ordered
  unfold runAskMore
  rcases srcHasMore_cases s with ⟨_, h'⟩ | ⟨a, rest, _, h'⟩ <;> rw [h']
  · exact h
  · rcases a with (_ | _) | e
    · exact portInv_setPhase hordered trivial
    · exact portInv_setPhase hordered rfl
    · exact portInv_setPhase hordered trivial

/-- A byte is taken right after `SRC.has_more()` answered true (45_host_and_diag.md R227). -/
theorem portInv_runTakeByte {s : State} (h : s.PortInv) (hp : s.phase = .needByte) : (runTakeByte s).PortInv := by
  have hordered := h.ordered
  have hmore : s.trace.head? = some (.hasMore (.ok true)) := h.fits hp
  unfold runTakeByte
  rcases srcTake_cases s with ⟨_, h'⟩ | ⟨a, rest, _, h'⟩ <;> rw [h']
  · exact h
  · cases a with
    | ok b => exact portInv_setPhase ⟨hmore, hordered⟩ rfl
    | err e => exact portInv_setPhase ⟨hmore, hordered⟩ trivial

/-- The byte step makes no transaction, so the byte's `SRC.next()` is still the newest when its output waits. -/
theorem portInv_runByteStep {s : State} {b : Byte} (h : s.PortInv) (hp : s.phase = .haveByte b) :
    (runByteStep b s).PortInv := by
  have hordered := h.ordered
  have hnext : s.trace.head? = some (.next (.ok b)) := h.fits hp
  unfold runByteStep
  split
  · exact (portsQuiet_fetchRound s).portInv h
  · split
    · exact portInv_setPhase hordered trivial
    · next t out hbyte =>
      have htrace : t.trace = s.trace := trace_byteStep hbyte
      exact portInv_setPhase (htrace ▸ hordered) ⟨b, htrace ▸ hnext⟩

/-- A byte is written right after `SRC.next()` answered one (45_host_and_diag.md R228). -/
theorem portInv_runPutByte {s : State} {out : Byte} (h : s.PortInv) (hp : s.phase = .putByte out) :
    (runPutByte out s).PortInv := by
  have hordered := h.ordered
  have hnext : ∃ b, s.trace.head? = some (.next (.ok b)) := h.fits hp
  unfold runPutByte
  rcases snkPut_cases s out with ⟨_, h'⟩ | ⟨a, rest, _, h'⟩ <;> rw [h']
  · exact h
  · cases a with
    | ok _ => exact portInv_setPhase ⟨hnext, hordered⟩ trivial
    | err e => exact portInv_setPhase ⟨hnext, hordered⟩ trivial

theorem portInv_runStep {s : State} (h : s.PortInv) : (runStep s).PortInv := by
  unfold runStep
  cases hp : s.phase with
  | top => exact portInv_runAskMore h
  | needByte => exact portInv_runTakeByte h hp
  | haveByte b => exact portInv_runByteStep h hp
  | putByte out => exact portInv_runPutByte h hp
  | finalFlush => exact portInv_flushOrFault h fun _ ht => portInv_of_idle ht rfl
  | faultFlush g => exact portInv_runFaultFlush h g

/-! ## Every move keeps the order -/

theorem portInv_ownStep {s : State} (i : Instr) (h : s.PortInv) : (ownStep i s).PortInv := by
  by_cases hrun : i = .run
  · subst hrun
    exact portInv_runStep h
  by_cases hclose : i = .close
  · subst hclose
    exact portInv_flushOrFault h fun _ ht => portInv_of_idle ht rfl
  exact (portsQuiet_ownStep hrun hclose s).portInv h

theorem portInv_exec {s t : State} {i : Instr} (h : s.PortInv) (ht : exec i s = .next t) : t.PortInv := by
  rw [exec_eq_checked] at ht
  rcases checked_cases ht with ⟨_, rfl⟩ | ⟨_, _, rfl⟩ | ⟨_, _, _, rfl⟩ | ⟨_, _, _, rfl⟩
  · exact h
  · exact (portsQuiet_raise rfl _).portInv h
  · exact (portsQuiet_raise rfl _).portInv h
  · exact portInv_ownStep i h

theorem portInv_coreStep {s t : State} (h : s.PortInv) (ht : coreStep s = .next t) : t.PortInv := by
  rcases coreStep_cases s with ⟨_, h'⟩ | ⟨f, i, _, _, h'⟩ | ⟨f, e, _, _, h'⟩ <;> rw [h'] at ht
  · cases ht; exact h
  · exact portInv_exec h ht
  · cases ht
    split
    · exact h
    · exact (portsQuiet_raise rfl _).portInv h

theorem portsQuiet_hostRead (s : State) (off : Nat) : PortsQuiet s (s.hostRead off) := by
  unfold State.hostRead
  split <;> exact .refl s

theorem portInv_accept {s : State} (h : s.PortInv) (w : Word) : (s.accept w).PortInv :=
  (State.portInv_iff _).mpr ⟨h.ordered, trivial⟩

theorem portInv_hostWrite {s : State} (h : s.PortInv) (off : Nat) (v : Word) : (s.hostWrite off v).PortInv := by
  rcases hostWrite_cases s off v with ⟨_, h'⟩ | ⟨_, h'⟩ | ⟨_, h'⟩ | ⟨_, h'⟩ | ⟨_, h'⟩ <;> rw [h']
  · rcases writeCtrl_cases s v with ⟨_, h'⟩ | ⟨_, h'⟩ <;> rw [h']
    · exact portInv_of_idle h.ordered rfl
    · exact h
  · exact h
  · rcases deliverCommand_cases s v with ⟨_, h'⟩ | ⟨_, _, h'⟩ | ⟨_, _, h'⟩ <;> rw [h']
    · exact h
    · exact h
    · exact portInv_accept h v
  · exact h
  · exact h

/-- Settles O26. -/
theorem stepKeepsPortOrder : Obligations.StepKeepsPortOrder := by
  intro s t h ht
  cases step_move ht with
  | core evs _ hcore => exact portInv_coreStep (s := { s with events := evs }) h hcore
  | hostRead width addr off rest _ _ ht =>
    subst ht
    exact (portsQuiet_hostRead { s with events := rest } off).portInv h
  | hostWrite width addr off v rest _ _ ht =>
    subst ht
    exact portInv_hostWrite (s := { s with events := rest }) h off v
  | pollEnds rest _ _ ht => subst ht; exact h
  | hardReset rest _ ht => subst ht; exact portInv_of_idle h.ordered rfl

end Sys2Proof.Machine
end

section
/-! PROOFS. The host's accesses to the register window (20_memory.md R56 to R61), and that the machine never stops at one that
has the form R56 asks for. -/

namespace Sys2Proof.Machine

/-! ## Which accesses have an offset (R56) -/

theorem hostReadAccess_of_offset {width addr off : Nat} {s : State} (h : windowOffset s.base width addr = .next off) :
    hostReadAccess width addr s = .next (s.hostRead off) := by
  unfold hostReadAccess
  rw [h]

theorem hostWriteAccess_of_offset {width addr off : Nat} {s : State} (v : Word)
    (h : windowOffset s.base width addr = .next off) : hostWriteAccess width addr v s = .next (s.hostWrite off v) := by
  unfold hostWriteAccess
  rw [h]

theorem exists_windowOffset_iff {base width addr : Nat} :
    (∃ off, windowOffset base width addr = .next off) ↔
      width = 4 ∧ base ≤ addr ∧ addr < base + 256 ∧ (addr - base) % 4 = 0 := by
  constructor
  · rintro ⟨off, h⟩
    obtain ⟨hlow, hhigh, hwidth, halign, _⟩ := windowOffset_next_iff.mp h
    exact ⟨hwidth, hlow, hhigh, halign⟩
  · rintro ⟨hwidth, hlow, hhigh, halign⟩
    exact ⟨_, windowOffset_next_iff.mpr ⟨hlow, hhigh, hwidth, halign, rfl⟩⟩

/-! ## Progress -/

/-- R56 gives the move a step: an access has an offset, and every other move has a step. -/
def Event.KeepsForm (base : Nat) : Event → Prop
  | .host (.read width addr) => ∃ off, windowOffset base width addr = .next off
  | .host (.write width addr _) => ∃ off, windowOffset base width addr = .next off
  | .core | .hostWait | .hardReset => True

theorem hostKeepsForm_iff (s : State) : s.HostKeepsForm ↔ ∀ ev ∈ s.events, ev.KeepsForm s.base := by
  refine forall₂_congr fun ev _ => ?_
  rcases ev with _ | (_ | _) | _ | _ <;> exact Iff.rfl

@[simp] theorem events_hostRead (s : State) (off : Nat) : (s.hostRead off).events = s.events := by
  unfold State.hostRead
  split <;> rfl

@[simp] theorem events_hostWrite (s : State) (off : Nat) (v : Word) : (s.hostWrite off v).events = s.events := by
  rcases hostWrite_cases s off v with ⟨_, h⟩ | ⟨_, h⟩ | ⟨_, h⟩ | ⟨_, h⟩ | ⟨_, h⟩ <;> rw [h]
  · rcases writeCtrl_cases s v with ⟨_, h⟩ | ⟨_, h⟩ <;> rw [h]
    exact State.resetBlock_events s
  · rfl
  · rcases deliverCommand_cases s v with ⟨_, h⟩ | ⟨_, _, h⟩ | ⟨_, _, h⟩ <;> rw [h]
    exact State.accept_events s v

/-- A move that keeps the form has a next state, and no move lists a new one: a host that waits stays listed. -/
theorem takeMove_next {ev : Event} {s : State} (h : ev.KeepsForm s.base) :
    ∃ t, takeMove ev s = .next t ∧ t.events ⊆ ev :: s.events := by
  cases ev with
  | core =>
    obtain ⟨t, ht, hsame⟩ := coreStep_next s
    exact ⟨t, ht, hsame.events ▸ List.subset_cons_self _ _⟩
  | host op =>
    cases op with
    | read width addr =>
      obtain ⟨off, hoff⟩ := h
      exact ⟨_, hostReadAccess_of_offset hoff, events_hostRead s off ▸ List.subset_cons_self _ _⟩
    | write width addr v =>
      obtain ⟨off, hoff⟩ := h
      exact ⟨_, hostWriteAccess_of_offset v hoff, events_hostWrite s off v ▸ List.subset_cons_self _ _⟩
  | hostWait =>
    rcases hostPoll_cases s with ⟨_, h'⟩ | ⟨_, h'⟩
    · obtain ⟨t, ht, hsame⟩ := coreStep_next { s with events := .hostWait :: s.events }
      exact ⟨t, h'.trans ht, hsame.events ▸ List.Subset.refl _⟩
    · exact ⟨_, h', List.subset_cons_self _ _⟩
  | hardReset => exact ⟨_, rfl, List.subset_cons_self _ _⟩

theorem step_next {s : State} (h : s.HostKeepsForm) : ∃ t, step s = .next t ∧ t.events ⊆ s.events := by
  rw [hostKeepsForm_iff] at h
  cases hev : s.events with
  | nil =>
    obtain ⟨t, ht, hsame⟩ := coreStep_next s
    exact ⟨t, (step_nil hev).trans ht, by rw [hsame.events, hev]; exact List.Subset.refl _⟩
  | cons ev rest =>
    have hform : ev.KeepsForm s.base := h ev (by simp [hev])
    rw [step_cons hev]
    exact takeMove_next (s := { s with events := rest }) hform

/-- Settles O24: the moves left are among those listed before, and BASE stands. -/
theorem legalHostNeverStopsMachine : Obligations.LegalHostNeverStopsMachine := by
  intro s h
  obtain ⟨t, ht, hsub⟩ := step_next h
  obtain ⟨_, hbase, _⟩ := parametersNeverChange s t ht
  refine ⟨t, ht, (hostKeepsForm_iff t).mpr fun ev hmem => ?_⟩
  rw [hbase]
  exact (hostKeepsForm_iff s).mp h ev (hsub hmem)

/-! ## What a host write does (R58, R59, 30_encoding.md R70) -/

/-- Writing 1 clears, writing 0 changes nothing. -/
theorem clearStatus_eq (s : State) (v : Word) :
    s.clearStatus v =
      { s with
        done := if v.getLsbD 4 then false else s.done
        ovr := if v.getLsbD 5 then false else s.ovr } := by
  unfold State.clearStatus
  cases v.getLsbD 4 <;> cases v.getLsbD 5 <;> simp

theorem deliverCommand_accepted {s : State} (hst : s.state ≠ .fault) (hidle : s.inFlight = none) (w : Word) :
    s.deliverCommand w = s.accept w := by
  rcases deliverCommand_cases s w with ⟨hfault, _⟩ | ⟨_, hbusy, _⟩ | ⟨_, _, h⟩
  · exact absurd hfault hst
  · simp [State.busy, hidle] at hbusy
  · exact h

theorem writeCtrl_enables {v : Word} (s : State) (hsrst : v.getLsbD 0 = false) :
    s.writeCtrl v = { s with ieDone := v.getLsbD 1, ieFault := v.getLsbD 2 } :=
  if_neg (Bool.eq_false_iff.mp hsrst)

/-- R58: read-only registers and reserved offsets ignore a write. -/
theorem hostWrite_ignored {s : State} {off : Nat} (v : Word) (h : off ∉ [0x08, 0x0C, 0x10, 0x14]) :
    s.hostWrite off v = s := by
  rcases hostWrite_cases s off v with ⟨rfl, _⟩ | ⟨rfl, _⟩ | ⟨rfl, _⟩ | ⟨rfl, _⟩ | ⟨_, h'⟩
  · simp at h
  · simp at h
  · simp at h
  · simp at h
  · exact h'

/-- Settles O12. -/
theorem hostWritesActOnTheirRegister : Obligations.HostWritesActOnTheirRegister := by
  intro s off v rest halign hlt hev
  rw [step_hostWrite hev halign hlt]
  refine ⟨?cmd, ?ctrl, ?status, ?din, ?ignored⟩
  case cmd =>
    rintro rfl hst hidle
    exact congrArg _ (deliverCommand_accepted (s := { s with events := rest }) hst hidle v)
  case ctrl =>
    rintro rfl hsrst
    exact congrArg _ (writeCtrl_enables _ hsrst)
  case status =>
    rintro rfl
    exact congrArg _ (clearStatus_eq _ v)
  case din =>
    rintro rfl
    rfl
  case ignored =>
    intro hoff
    exact congrArg _ (hostWrite_ignored v hoff)

/-! ## What a host read answers (R58, R59, R61) -/

/-- A host read of the register at an offset of the window. -/
theorem step_hostRead {s : State} {off : Nat} {rest : List Event}
    (hev : s.events = .host (.read 4 (s.base + off)) :: rest) (hoff : off % 4 = 0) (hlt : off < Config.windowBytes) :
    step s = .next (({ s with events := rest } : State).hostRead off) :=
  (step_cons hev).trans
    (hostReadAccess_of_offset (s := { s with events := rest }) (windowOffset_register s.base off hoff hlt))

theorem definedWhileBusy_iff (off : Nat) : definedWhileBusy off = true ↔ off ∈ [0x00, 0x04, 0x08, 0x0C, 0x14] := by
  simp [definedWhileBusy, or_assoc]

theorem hostRead_defined {s : State} {off : Nat} (h : s.busy = false ∨ definedWhileBusy off = true) :
    s.hostRead off = { s with rdata := some (s.register off) } := by
  unfold State.hostRead
  rcases h with h | h <;> simp [h]

theorem hostRead_undefined {s : State} {off : Nat} (hbusy : s.busy = true) (h : definedWhileBusy off = false) :
    s.hostRead off = { s with rdata := some (Config.busyRead s.freeCtr), freeCtr := s.freeCtr + 1 } := by
  unfold State.hostRead
  simp [hbusy, h]

/-- Settles O13. -/
theorem hostReadsAnswerAndChangeNothing : Obligations.HostReadsAnswerAndChangeNothing := by
  intro s off rest halign hlt hev
  rw [step_hostRead hev halign hlt]
  constructor
  · intro h
    rw [← definedWhileBusy_iff] at h
    exact congrArg _ (hostRead_defined (s := { s with events := rest }) h)
  · intro hbusy h
    rw [← definedWhileBusy_iff, Bool.not_eq_true] at h
    exact ⟨_, congrArg _ (hostRead_undefined (s := { s with events := rest }) hbusy h), _, rfl⟩

/-! ## Which accesses have a step (R56) -/

/-- An access has a step exactly where R56 gives it one. -/
theorem step_host_iff {s : State} {op : HostOp} {rest : List Event} (hev : s.events = .host op :: rest) :
    (∃ t, step s = .next t) ↔ (Event.host op).KeepsForm s.base := by
  rw [step_cons hev]
  constructor
  · rintro ⟨t, ht⟩
    cases op with
    | read width addr =>
      obtain ⟨off, hoff, _⟩ := hostReadAccess_next ht
      exact ⟨off, hoff⟩
    | write width addr v =>
      obtain ⟨off, hoff, _⟩ := hostWriteAccess_next ht
      exact ⟨off, hoff⟩
  · intro hform
    obtain ⟨t, ht, _⟩ := takeMove_next (s := { s with events := rest }) hform
    exact ⟨t, ht⟩

/-- Settles O15. -/
theorem hostAccessNeedsWordForm : Obligations.HostAccessNeedsWordForm := by
  intro s width addr v rest
  exact ⟨fun hev => (step_host_iff hev).trans exists_windowOffset_iff,
    fun hev => (step_host_iff hev).trans exists_windowOffset_iff⟩

end Sys2Proof.Machine
end

section
/-! PROOFS. The command word (30_encoding.md R71 to R81): decoding, encoding and the opcode map agree.

A command decodes from a word exactly when the word carries its opcode, the reserved field of its format is zero and its operands
are those in the fields (`decode_ok_iff`). A row of the opcode table covers a word exactly when the first two hold
(`covered_iff`). The statements about the encoding follow from these two. -/

namespace Sys2Proof

/-! ## The formats (R72) -/

/-- The five formats of R72. -/
inductive Format where
  | cf0
  | cfb
  | cfs
  | cfsk
  | cfssl

/-- The format of a command (R75). -/
def Instr.format : Instr → Format
  | .keyPush _ => .cfb
  | .bigAdd _ _ _ => .cfssl
  | .sensLoad _ | .sensAdd _ | .sensExtract _ => .cfs
  | .drd _ _ | .dwr _ _ => .cfsk
  | .nop | .keyClear | .openEnc | .openDec | .close | .xform | .run | .chainNext | .sensSqfold => .cf0

/-- The lowest bit of the field the format reserves (R72). -/
def Format.reservedLow : Format → Nat
  | .cf0 | .cfs | .cfssl => 0
  | .cfb => 8
  | .cfsk => 16

/-- The width of the field the format reserves; CFSSL reserves none (R72). -/
def Format.reservedWidth : Format → Nat
  | .cf0 => 24
  | .cfb => 16
  | .cfs => 20
  | .cfsk => 4
  | .cfssl => 0

/-- Every bit the format reserves is zero in the word (R77). -/
def Format.ReservedZero (f : Format) (w : Word) : Prop := w.extractLsb' f.reservedLow f.reservedWidth = 0

/-- The command of the same opcode with the operands that the word's fields hold (R73, R74). -/
def Instr.readOperands (w : Word) : Instr → Instr
  | .keyPush _ => .keyPush (byteField w)
  | .bigAdd _ _ _ => .bigAdd (s1Field w).toNat (s2Field w).toNat (immField w).toNat
  | .sensLoad _ => .sensLoad (s1Field w).toNat
  | .sensAdd _ => .sensAdd (s1Field w).toNat
  | .sensExtract _ => .sensExtract (s1Field w).toNat
  | .drd _ _ => .drd (s1Field w).toNat (immField w).toNat
  | .dwr _ _ => .dwr (s1Field w).toNat (immField w).toNat
  | i => i

@[simp] theorem opcodeOf_readOperands (w : Word) (i : Instr) : opcodeOf (i.readOperands w) = opcodeOf i := by
  cases i <;> rfl

@[simp] theorem format_readOperands (w : Word) (i : Instr) : (i.readOperands w).format = i.format := by
  cases i <;> rfl

@[simp] theorem readOperands_readOperands (v w : Word) (i : Instr) :
    (i.readOperands v).readOperands w = i.readOperands w := by
  cases i <;> rfl

@[simp] theorem slotFits_toNat (slot : BitVec 4) : slotFits slot.toNat = true := decide_eq_true slot.isLt

@[simp] theorem immFits_toNat (v : BitVec 16) : immFits v.toNat = true := decide_eq_true v.isLt

/-- Operands read from fields fit the fields. -/
theorem wf_readOperands (w : Word) (i : Instr) : (i.readOperands w).wf = true := by
  cases i <;> simp [Instr.readOperands, Instr.wf]

/-! ## What the decoder answers -/

theorem opcField_eq_of_toNat {w : Word} {n : Nat} (h : (opcField w).toNat = n) : opcField w = BitVec.ofNat 8 n := by
  rw [← h, BitVec.ofNat_toNat, BitVec.setWidth_eq]

/-- A word decodes to a command exactly when it carries the command's opcode, the bits the command's format reserves are zero and
the operands are those in its fields (R72, R75, R77). -/
theorem decode_ok_iff {w : Word} {i : Instr} :
    decode w = .ok i ↔ opcField w = opcodeOf i ∧ i.format.ReservedZero w ∧ i.readOperands w = i := by
  constructor
  · intro h
    unfold decode at h
    split at h
    -- BIGADD's arm, the tenth, checks no reserved field; the last arm is that of no opcode.
    case h_10 hopc =>
      cases h
      exact ⟨opcField_eq_of_toNat hopc, BitVec.of_length_zero, rfl⟩
    case h_17 => cases h
    all_goals
      next hopc =>
      obtain ⟨hres, rfl⟩ := ifReservedZero_ok h
      exact ⟨opcField_eq_of_toNat hopc, hres, rfl⟩
  · rintro ⟨hopc, hres, hread⟩
    unfold decode
    rw [hopc, ← hread]
    cases i with
    | bigAdd dst src len => rfl
    | _ => exact ifReservedZero_zero hres _

theorem exists_decode_iff {w : Word} : (∃ i, decode w = .ok i) ↔ ∃ i, opcField w = opcodeOf i ∧ i.format.ReservedZero w := by
  constructor
  · rintro ⟨i, h⟩
    obtain ⟨hopc, hres, _⟩ := decode_ok_iff.mp h
    exact ⟨i, hopc, hres⟩
  · rintro ⟨i, hopc, hres⟩
    exact ⟨i.readOperands w, decode_ok_iff.mpr (by simp [hopc, hres])⟩

/-! ## What the encoder writes (R81) -/

@[simp] theorem opcField_encode (i : Instr) : opcField (encode i) = opcodeOf i := by
  cases i <;> exact opcField_packFields _ _ _ _

/-- The encoder leaves the bits that the format reserves zero. -/
theorem reservedZero_encode (i : Instr) : i.format.ReservedZero (encode i) := by
  cases i with
  | keyPush b => exact reserved_CFB _ b
  | bigAdd dst src len => exact BitVec.of_length_zero
  | sensLoad src => exact reserved_CFS _ _
  | sensAdd src => exact reserved_CFS _ _
  | sensExtract dst => exact reserved_CFS _ _
  | drd slot k => exact reserved_CFSK _ _ _
  | dwr slot k => exact reserved_CFSK _ _ _
  | _ => exact reserved_CF0 _

theorem mod_eq_of_slotFits {slot : Nat} (h : slotFits slot = true) : slot % 16 = slot :=
  Nat.mod_eq_of_lt (of_decide_eq_true h)

theorem mod_eq_of_immFits {v : Nat} (h : immFits v = true) : v % 65536 = v := Nat.mod_eq_of_lt (of_decide_eq_true h)

/-- Operands that fit their fields are read back from the encoder's word. -/
theorem readOperands_encode {i : Instr} (h : i.wf = true) : i.readOperands (encode i) = i := by
  cases i with
  | keyPush b => exact congrArg Instr.keyPush (byteField_CFB _ b)
  | bigAdd dst src len =>
    simp only [Instr.wf, Bool.and_eq_true] at h
    obtain ⟨⟨hdst, hsrc⟩, hlen⟩ := h
    simp [Instr.readOperands, encode, mod_eq_of_slotFits hdst, mod_eq_of_slotFits hsrc, mod_eq_of_immFits hlen]
  | sensLoad src => simp [Instr.readOperands, encode, mod_eq_of_slotFits h]
  | sensAdd src => simp [Instr.readOperands, encode, mod_eq_of_slotFits h]
  | sensExtract dst => simp [Instr.readOperands, encode, mod_eq_of_slotFits h]
  | drd slot k =>
    obtain ⟨hslot, hk⟩ := Bool.and_eq_true_iff.mp h
    simp [Instr.readOperands, encode, mod_eq_of_slotFits hslot, mod_eq_of_immFits hk]
  | dwr slot k =>
    obtain ⟨hslot, hk⟩ := Bool.and_eq_true_iff.mp h
    simp [Instr.readOperands, encode, mod_eq_of_slotFits hslot, mod_eq_of_immFits hk]
  | _ => rfl

/-- Settles O2: the word of a command carries its opcode, zero reserved bits and its operands. -/
theorem decodeEncodeRoundTrip : Obligations.DecodeEncodeRoundTrip := fun i hwf =>
  decode_ok_iff.mpr ⟨opcField_encode i, reservedZero_encode i, readOperands_encode hwf⟩

/-! ## A word is its opcode and its used fields when its reserved field is zero (R81) -/

theorem toNat_div_mod_eq_zero {w : Word} {low width : Nat} (h : w.extractLsb' low width = 0) :
    w.toNat / 2 ^ low % 2 ^ width = 0 := by
  rw [← toNat_field, h]
  rfl

theorem packFields_CF0 {w : Word} {o : BitVec 8} (hopc : opcField w = o) (h : Format.cf0.ReservedZero w) :
    packFields o 0 0 0 = w := by
  have hzero : w.toNat / 2 ^ 0 % 2 ^ 24 = 0 := toNat_div_mod_eq_zero h
  subst hopc
  apply BitVec.eq_of_toNat_eq
  rw [toNat_packFields, opcField, toNat_field]
  simp only [BitVec.ofNat_eq_ofNat, BitVec.toNat_ofNat]
  omega

theorem packFields_CFB {w : Word} {o : BitVec 8} (hopc : opcField w = o) (h : Format.cfb.ReservedZero w) :
    packFields o 0 0 ((byteField w).setWidth 16) = w := by
  have hzero : w.toNat / 2 ^ 8 % 2 ^ 16 = 0 := toNat_div_mod_eq_zero h
  subst hopc
  apply BitVec.eq_of_toNat_eq
  rw [toNat_packFields, BitVec.toNat_setWidth, opcField, byteField, toNat_field, toNat_field]
  simp only [BitVec.ofNat_eq_ofNat, BitVec.toNat_ofNat]
  omega

theorem packFields_CFS {w : Word} {o : BitVec 8} (hopc : opcField w = o) (h : Format.cfs.ReservedZero w) :
    packFields o (s1Field w) 0 0 = w := by
  have hzero : w.toNat / 2 ^ 0 % 2 ^ 20 = 0 := toNat_div_mod_eq_zero h
  subst hopc
  apply BitVec.eq_of_toNat_eq
  rw [toNat_packFields, opcField, s1Field, toNat_field, toNat_field]
  simp only [BitVec.ofNat_eq_ofNat, BitVec.toNat_ofNat]
  omega

theorem packFields_CFSK {w : Word} {o : BitVec 8} (hopc : opcField w = o) (h : Format.cfsk.ReservedZero w) :
    packFields o (s1Field w) 0 (immField w) = w := by
  have hs2 : s2Field w = 0 := h
  subst hopc
  rw [← hs2]
  exact (word_eq_packFields w).symm

theorem packFields_CFSSL {w : Word} {o : BitVec 8} (hopc : opcField w = o) :
    packFields o (s1Field w) (s2Field w) (immField w) = w := by
  subst hopc
  exact (word_eq_packFields w).symm

/-- Encoding what was read from a word gives the word back. -/
theorem encode_readOperands {w : Word} {i : Instr} (hopc : opcField w = opcodeOf i) (hres : i.format.ReservedZero w) :
    encode (i.readOperands w) = w := by
  cases i with
  | keyPush b => exact packFields_CFB hopc hres
  | bigAdd dst src len => simpa [Instr.readOperands, encode, opcodeOf] using packFields_CFSSL hopc
  | sensLoad src => simpa [Instr.readOperands, encode, opcodeOf] using packFields_CFS hopc hres
  | sensAdd src => simpa [Instr.readOperands, encode, opcodeOf] using packFields_CFS hopc hres
  | sensExtract dst => simpa [Instr.readOperands, encode, opcodeOf] using packFields_CFS hopc hres
  | drd slot k => simpa [Instr.readOperands, encode, opcodeOf] using packFields_CFSK hopc hres
  | dwr slot k => simpa [Instr.readOperands, encode, opcodeOf] using packFields_CFSK hopc hres
  | _ => exact packFields_CF0 hopc hres

/-- Settles O3: the command is its own operands read from the word, which fit and encode back. -/
theorem decodedWordIsItsEncoding : Obligations.DecodedWordIsItsEncoding := by
  intro w i h
  obtain ⟨hopc, hres, hread⟩ := decode_ok_iff.mp h
  exact ⟨hread ▸ wf_readOperands w i, by rw [← encode_readOperands hopc hres, hread]⟩

/-- O2 and O3 as one law: the words of a command are its encoding, where it has one. -/
theorem decode_eq_ok_iff {w : Word} {i : Instr} : decode w = .ok i ↔ i.wf = true ∧ encode i = w := by
  constructor
  · exact decodedWordIsItsEncoding w i
  · rintro ⟨hwf, rfl⟩
    exact decodeEncodeRoundTrip i hwf

/-- Settles O1: each word is the encoding of its command. -/
theorem specExampleWordsDecode : Obligations.SpecExampleWordsDecode := by
  unfold Obligations.SpecExampleWordsDecode
  simp only [decode_eq_ok_iff]
  decide

/-! ## The opcode map (R75, R77) -/

/-- The bits of a row: the opcode in field OPC, every other bit zero. -/
def Instr.rowBits (i : Instr) : Word := (opcodeOf i).setWidth 32 <<< 24

/-- The word with ones in the field of `width` bits from bit `low`, zeros elsewhere. -/
def fieldMask (low width : Nat) : Word := (BitVec.allOnes width).setWidth 32 <<< low

/-- The bits a row fixes: field OPC and the field its format reserves. -/
def Instr.rowMask (i : Instr) : Word := fieldMask 24 8 ||| fieldMask i.format.reservedLow i.format.reservedWidth

/-- One command of each row of the opcode map. -/
def rowCommands : List Instr :=
  [.nop, .keyClear, .keyPush 0, .openEnc, .openDec, .close, .xform, .run, .chainNext, .bigAdd 0 0 0, .sensLoad 0, .sensAdd 0,
    .sensSqfold, .sensExtract 0, .drd 0 0, .dwr 0 0]

/-- The opcode table is the opcode and the reserved field of each command. -/
theorem opcodeTable_rows : opcodeTable.map (fun r => (r.bits, r.mask)) = rowCommands.map fun i => (i.rowBits, i.rowMask) := by
  decide

theorem readOperands_mem_rowCommands (i : Instr) : i.readOperands 0 ∈ rowCommands := by
  cases i <;> simp [Instr.readOperands, rowCommands, s1Field, s2Field, immField, byteField]

theorem getLsbD_fieldMask (low width n : Nat) :
    (fieldMask low width).getLsbD n = decide (low ≤ n ∧ n < low + width ∧ n < 32) := by
  rw [Bool.eq_iff_iff]
  simp [fieldMask]
  omega

/-- A word agrees with an opcode under the mask of field OPC and a field below it exactly when it carries the opcode and the
lower field is zero. -/
theorem and_fieldMask_eq_iff {w : Word} {o : BitVec 8} {low width : Nat} (h : low + width ≤ 24) :
    w &&& (fieldMask 24 8 ||| fieldMask low width) = o.setWidth 32 <<< 24 ↔
      opcField w = o ∧ w.extractLsb' low width = 0 := by
  constructor
  · intro heq
    have hbit (n : Nat) := congrArg (BitVec.getLsbD · n) heq
    simp only [BitVec.getLsbD_and, BitVec.getLsbD_or, getLsbD_fieldMask] at hbit
    constructor
    · ext n hn
      have hopc := hbit (24 + n)
      simpa [opcField, hn, show 24 + n < 32 by omega, show n < 32 by omega] using hopc
    · ext n hn
      have hlow := hbit (low + n)
      simpa [hn, show low + n < 32 by omega, show low + n < 24 by omega] using hlow
  · rintro ⟨rfl, hzero⟩
    apply BitVec.eq_of_getLsbD_eq
    intro n hn
    simp only [BitVec.getLsbD_and, BitVec.getLsbD_or, getLsbD_fieldMask]
    by_cases hopc : 24 ≤ n
    · simp [opcField, hn, hopc, show ¬ n < 24 by omega, show n - 24 < 8 by omega]
    · have hlow := congrArg (BitVec.getLsbD · (n - low)) hzero
      by_cases hin : low ≤ n ∧ n < low + width
      · simpa [hopc, hin, hn, show n < 24 by omega, show n - low < width by omega] using hlow
      · simp [hopc, hn, hin, show n < 24 by omega]

theorem reserved_below_opcode (f : Format) : f.reservedLow + f.reservedWidth ≤ 24 := by
  cases f <;> decide

theorem covers_iff {r : OpcodeRow} {i : Instr} {w : Word} (h : (r.bits, r.mask) = (i.rowBits, i.rowMask)) :
    r.covers w = true ↔ opcField w = opcodeOf i ∧ i.format.ReservedZero w := by
  obtain ⟨hbits, hmask⟩ := Prod.mk.inj h
  rw [OpcodeRow.covers, beq_iff_eq, hbits, hmask]
  exact and_fieldMask_eq_iff (reserved_below_opcode _)

/-- A row of the opcode table covers a word exactly when the word carries some command's opcode with that command's reserved
field zero. -/
theorem covered_iff {w : Word} :
    (∃ r ∈ opcodeTable, r.covers w = true) ↔ ∃ i, opcField w = opcodeOf i ∧ i.format.ReservedZero w := by
  constructor
  · rintro ⟨r, hr, hcov⟩
    have hrow := List.mem_map_of_mem (f := fun r : OpcodeRow => (r.bits, r.mask)) hr
    rw [opcodeTable_rows] at hrow
    obtain ⟨i, _, hi⟩ := List.mem_map.mp hrow
    exact ⟨i, (covers_iff hi.symm).mp hcov⟩
  · rintro ⟨i, hopc, hres⟩
    have hrow := List.mem_map_of_mem (f := fun i : Instr => (i.rowBits, i.rowMask)) (readOperands_mem_rowCommands i)
    rw [← opcodeTable_rows] at hrow
    obtain ⟨r, hr, hri⟩ := List.mem_map.mp hrow
    exact ⟨r, hr, (covers_iff hri).mpr (by simp [hopc, hres])⟩

theorem decode_nop_iff (w : Word) : decode w = .ok .nop ↔ w = 0 := by
  rw [decode_eq_ok_iff]
  exact ⟨fun ⟨_, h⟩ => h.symm, fun h => ⟨rfl, h.symm⟩⟩

end Sys2Proof
end

section
/-! PROOFS. What the core does with the word in flight (30_encoding.md R70, R73 to R78): it runs the decoded command, or raises
ILLEGAL_CMD, ILLEGAL_STATE or ILLEGAL_OPERAND, and no command raises ILLEGAL_STATE otherwise. -/

namespace Sys2Proof.Machine

/-! ## The word in flight -/

theorem coreStep_of_decode {s : State} {f : InFlight} {i : Instr} (hf : s.inFlight = some f)
    (hdec : decode f.word = .ok i) : coreStep s = exec i s := by
  unfold coreStep
  rw [hf]
  dsimp only
  rw [hdec]

/-- Taking a fault, with what becomes of the hidden buffers left open (60_exceptions.md R241). -/
theorem raise_faultedLike (s : State) (f : FaultInfo) : s.raise f = s.faultedLike (s.raise f) f := rfl

theorem coreStep_illegalCmd {s : State} {f : InFlight} (hf : s.inFlight = some f) (hst : s.state ≠ .fault)
    (hillegal : ¬ ∃ i, decode f.word = .ok i) : coreStep s = .next (s.raise (illegalCmdFault f.word)) := by
  rcases coreStep_cases s with ⟨hidle, _⟩ | ⟨g, i, hg, hdec, _⟩ | ⟨g, e, hg, _, h⟩
  · simp [hf] at hidle
  · cases hf.symm.trans hg
    exact absurd ⟨i, hdec⟩ hillegal
  · cases hf.symm.trans hg
    rw [h, if_neg hst]

/-- Settles O4: a row covers a word exactly when it decodes, and a word that does not decode raises ILLEGAL_CMD. -/
theorem wordIsOneCommandOrIllegal : Obligations.WordIsOneCommandOrIllegal := by
  intro w
  have hiff : (∃ i, decode w = .ok i) ↔ ∃ r ∈ opcodeTable, r.covers w = true := exists_decode_iff.trans covered_iff.symm
  refine ⟨hiff, decode_nop_iff w, ?_⟩
  rintro s f hf rfl hst huncovered
  refine ⟨_, coreStep_illegalCmd hf hst fun hdec => ?_, raise_faultedLike s _⟩
  obtain ⟨r, hr, hcov⟩ := hiff.mp hdec
  simp [huncovered r hr] at hcov

theorem decode_of_decodeTableWord {nbits w : Nat} {i : Instr} (h : decodeTableWord nbits w = some i) :
    decode (BitVec.ofNat 32 (w % 2 ^ nbits)) = .ok i := by
  unfold decodeTableWord decodeWord at h
  split at h
  · next hdec => rwa [← Option.some.inj h]
  · cases h

theorem hostPoll_of_busy {s : State} (hbusy : s.busy = true) :
    hostPoll s = coreStep { s with events := .hostWait :: s.events } := if_pos hbusy

/-- Settles O5: each of the moves is the core's step, at the state or past the move. -/
theorem stepRunsDecodedCommand : Obligations.StepRunsDecodedCommand := by
  constructor
  · intro s f i hf hdec _
    refine ⟨fun hev => ?noMove, fun rest hev => ?coreMove, fun rest hev => ?waiting⟩
    case noMove => rw [step_nil hev, coreStep_of_decode hf hdec]
    case coreMove =>
      rw [step_cons hev]
      exact coreStep_of_decode (s := { s with events := rest }) hf hdec
    case waiting =>
      have hbusy : ({ s with events := rest } : State).busy = true := by simp [State.busy, hf]
      have hsame : ({ s with events := .hostWait :: rest } : State) = s := by rw [← hev]
      calc step s = hostPoll { s with events := rest } := step_cons hev
        _ = coreStep { s with events := .hostWait :: rest } := hostPoll_of_busy hbusy
        _ = exec i s := by rw [hsame, coreStep_of_decode hf hdec]
  · intro s nbits w i h
    exact coreStep_of_decode (s := s.accept _) rfl (decode_of_decodeTableWord h)

/-! ## The checks of legal state and operands (R73, R74, R76) -/

theorem exec_illegalState {i : Instr} {s : State} (hst : s.state ≠ .fault) (hlegal : legalIn i s.state = false) :
    exec i s = .next (s.raise (illegalStateFault i s)) := by
  obtain ⟨t, ht⟩ := exec_next i s
  rw [ht]
  rw [exec_eq_checked] at ht
  rcases checked_cases ht with ⟨hfault, _⟩ | ⟨_, _, rfl⟩ | ⟨_, h, _⟩ | ⟨_, h, _⟩
  · exact absurd hfault hst
  · rfl
  · simp [hlegal] at h
  · simp [hlegal] at h

theorem exec_illegalOperand {i : Instr} {s : State} (hst : s.state ≠ .fault) (hlegal : legalIn i s.state = true)
    (hrange : operandsInRange s.wT i = false) : exec i s = .next (s.raise (illegalOperandFault i s)) := by
  obtain ⟨t, ht⟩ := exec_next i s
  rw [ht]
  rw [exec_eq_checked] at ht
  rcases checked_cases ht with ⟨hfault, _⟩ | ⟨_, h, _⟩ | ⟨_, _, _, rfl⟩ | ⟨_, _, h, _⟩
  · exact absurd hfault hst
  · simp [hlegal] at h
  · rfl
  · simp [hrange] at h

theorem termSlotOk_iff (slot : Nat) : termSlotOk slot = true ↔ slot ≤ 10 := by
  rw [termSlotOk, decide_eq_true_iff]
  exact Nat.lt_succ_iff

theorem anySlotOk_iff (slot : Nat) : anySlotOk slot = true ↔ slot ≤ 11 := by
  rw [anySlotOk, decide_eq_true_iff]
  rfl

/-- Settles O7. -/
theorem illegalOperandRaised : Obligations.IllegalOperandRaised := by
  intro s raises
  have hraises (i : Instr) (hst : s.state ≠ .fault) (hlegal : legalIn i s.state = true)
      (hrange : ¬ operandsInRange s.wT i = true) : raises i :=
    ⟨_, exec_illegalOperand hst hlegal (Bool.eq_false_iff.mpr hrange), raise_faultedLike s _⟩
  refine ⟨fun dst src len hidle hout => ?bigAdd, fun slot hidle hout => ?sens, fun slot k hst hout => ?drd,
    fun slot k hidle hout => ?dwr⟩
  case bigAdd =>
    refine hraises _ (by simp [hidle]) (by simp [legalIn, hidle]) ?_
    simp only [operandsInRange, Bool.and_eq_true, termSlotOk_iff, decide_eq_true_eq]
    omega
  case sens =>
    have hslot : ¬ termSlotOk slot = true := by
      rw [termSlotOk_iff]
      omega
    have hfault : s.state ≠ .fault := by simp [hidle]
    exact ⟨hraises (.sensLoad slot) hfault (by simp [legalIn, hidle]) hslot,
      hraises (.sensAdd slot) hfault (by simp [legalIn, hidle]) hslot,
      hraises (.sensExtract slot) hfault (by simp [legalIn, hidle]) hslot⟩
  case drd =>
    have hrange : ¬ operandsInRange s.wT (.drd slot k) = true := by
      simp only [operandsInRange, Bool.and_eq_true, anySlotOk_iff, decide_eq_true_eq]
      omega
    rcases hst with hst | hst <;> exact hraises _ (by simp [hst]) (by simp [legalIn, hst]) hrange
  case dwr =>
    refine hraises _ (by simp [hidle]) (by simp [legalIn, hidle]) ?_
    simp only [operandsInRange, Bool.and_eq_true, anySlotOk_iff, decide_eq_true_eq]
    omega

/-! ## The legal-state table (R76) -/

/-- The opcodes of the commands that are legal in IDLE only (R76). -/
def idleOnlyOpcodes : List (BitVec 8) := [0x01, 0x02, 0x08, 0x09, 0x20, 0x28, 0x29, 0x2A, 0x2B, 0x31]

/-- The opcodes of the commands that are legal in READY only (R76). -/
def readyOnlyOpcodes : List (BitVec 8) := [0x0A, 0x10, 0x11, 0x12]

theorem legalIn_ready (i : Instr) : legalIn i .ready = decide (opcodeOf i ∉ idleOnlyOpcodes) := by
  cases i <;> rfl

theorem legalIn_idle (i : Instr) : legalIn i .idle = decide (opcodeOf i ∉ readyOnlyOpcodes) := by
  cases i <;> rfl

/-- ERR is as it was, or holds a code that is not one of the checks made before a command runs (R70). -/
def ErrKeptOrOwn (s t : State) : Prop := t.err = s.err ∨ t.err ∉ [ErrCode.illegalCmd, .illegalState, .illegalOperand]

theorem ErrKeptOrOwn.not_illegalState {s t : State} (h : ErrKeptOrOwn s t) (hs : s.err ≠ .illegalState) :
    t.err ≠ .illegalState := by
  rcases h with h | h
  · rwa [h]
  · intro ht
    simp [ht] at h

theorem OnlyDigits.err_eq {s t : State} (h : OnlyDigits s t) : t.err = s.err := by
  unfold OnlyDigits at h
  rw [h]

theorem err_fetchRound (s : State) : s.fetchRound.err = s.err := by
  rcases fetchRound_cases s with ⟨_, h⟩ | ⟨_, h⟩ <;> rw [h] <;> rfl

theorem errKeptOrOwn_openStep (mode : Mode) (s : State) : ErrKeptOrOwn s (openStep mode s) := by
  have hseed : s.zeroSlots.seed.1.err = s.err := ((onlyDigits_zeroSlots s).trans (onlyDigits_seed _)).err_eq
  rcases openStep_cases mode s with ⟨_, h⟩ | ⟨f, _, hf, h⟩ | ⟨_, _, h⟩ <;> rw [h]
  · exact .inr (by decide : ErrCode.invalidKey ∉ _)
  · refine .inr ?_
    rw [State.raise_err, seed_fault_code hf]
    decide
  · exact .inl (by simpa using hseed)

theorem errKeptOrOwn_xformStep (s : State) : ErrKeptOrOwn s (xformStep s) := by
  unfold xformStep
  split
  · exact .inl (err_fetchRound s)
  · rcases byteStep_cases s s.latchedDin with ⟨_, h⟩ | ⟨_, h⟩ <;> rw [h]
    · exact .inr (by decide : ErrCode.poolOverflow ∉ _)
    · exact .inl rfl

theorem errKeptOrOwn_chainNextStep (s : State) : ErrKeptOrOwn s (chainNextStep s) := by
  unfold chainNextStep
  split
  · exact .inl (err_fetchRound s)
  · exact .inl ((State.complete_err _).trans (err_fetchRound s))

theorem err_runAskMore (s : State) : (runAskMore s).err = s.err := by
  unfold runAskMore
  rcases srcHasMore_cases s with ⟨_, h⟩ | ⟨a, rest, _, h⟩ <;> rw [h]
  rcases a with (_ | _) | e <;> rfl

theorem errKeptOrOwn_closeStep (s : State) : ErrKeptOrOwn s (closeStep s) := by
  unfold closeStep flushOrFault
  rcases snkSync_cases s with ⟨_, h⟩ | ⟨a, rest, _, h⟩ <;> rw [h]
  · exact .inl rfl
  · cases a with
    | ok _ => exact .inl rfl
    | err e => exact .inr (by decide : ErrCode.ioSink ∉ _)

/-- At its start the own step of a command raises no fault of the checks made before it. -/
theorem errKeptOrOwn_ownStep (i : Instr) {s : State} (htop : s.phase = .top) : ErrKeptOrOwn s (ownStep i s) := by
  cases i with
  | openEnc => exact errKeptOrOwn_openStep _ s
  | openDec => exact errKeptOrOwn_openStep _ s
  | close => exact errKeptOrOwn_closeStep s
  | xform => exact errKeptOrOwn_xformStep s
  | run =>
    dsimp only [ownStep, runStep]
    rw [htop]
    exact .inl (err_runAskMore s)
  | chainNext => exact errKeptOrOwn_chainNextStep s
  | keyPush b =>
    dsimp only [ownStep, keyPushStep]
    split
    · exact .inr (by decide : ErrCode.allocationFailure ∉ _)
    · exact .inl rfl
  | sensLoad src =>
    dsimp only [ownStep, sensLoadStep]
    rcases loadSens_cases s (s.slotVal src) with ⟨_, h⟩ | ⟨_, h⟩ <;> rw [h]
    · exact .inr (by decide : ErrCode.sensitivityOverflow ∉ _)
    · exact .inl rfl
  | sensAdd src =>
    dsimp only [ownStep, sensAddStep]
    rcases addSens_cases s src with ⟨_, h⟩ | ⟨_, h⟩ <;> rw [h]
    · exact .inr (by decide : ErrCode.sensitivityOverflow ∉ _)
    · exact .inl rfl
  | sensSqfold =>
    dsimp only [ownStep, sensSqfoldStep]
    split
    · exact .inr (by decide : ErrCode.sensitivityOverflow ∉ _)
    · exact .inl rfl
  | nop => exact .inl rfl
  | keyClear => exact .inl rfl
  | bigAdd dst src len => exact .inl rfl
  | sensExtract dst => exact .inl rfl
  | drd slot k => exact .inl rfl
  | dwr slot k => exact .inl rfl

/-- A command at its start, in a state where it is legal, does not raise ILLEGAL_STATE. -/
theorem exec_legal_not_illegalState {i : Instr} {s : State} (hst : s.state ≠ .fault) (hlegal : legalIn i s.state = true)
    (htop : s.phase = .top) (herr : s.err ≠ .illegalState) : ∃ t, exec i s = .next t ∧ t.err ≠ .illegalState := by
  obtain ⟨t, ht⟩ := exec_next i s
  refine ⟨t, ht, ?_⟩
  rw [exec_eq_checked] at ht
  rcases checked_cases ht with ⟨hfault, _⟩ | ⟨_, h, _⟩ | ⟨_, _, _, rfl⟩ | ⟨_, _, _, rfl⟩
  · exact absurd hfault hst
  · simp [hlegal] at h
  · exact (by decide : ErrCode.illegalOperand ≠ .illegalState)
  · exact (errKeptOrOwn_ownStep i htop).not_illegalState herr

/-- Settles O6. -/
theorem illegalStateRaised : Obligations.IllegalStateRaised := by
  intro i s onlyIdle onlyReady
  refine ⟨fun hready hmem => ?inReady, fun hidle hmem => ?inIdle, fun hlegal htop herr => ?legal⟩
  case inReady =>
    have hlegal : legalIn i s.state = false := by
      rw [hready, legalIn_ready]
      exact decide_eq_false (not_not.mpr hmem)
    refine ⟨_, exec_illegalState (by simp [hready]) hlegal, ?_⟩
    rw [illegalStateFault, hready]
    exact raise_faultedLike s _
  case inIdle =>
    have hlegal : legalIn i s.state = false := by
      rw [hidle, legalIn_idle]
      exact decide_eq_false (not_not.mpr hmem)
    refine ⟨_, exec_illegalState (by simp [hidle]) hlegal, ?_⟩
    rw [illegalStateFault, hidle]
    exact raise_faultedLike s _
  case legal =>
    rcases hlegal with ⟨hready, hmem⟩ | ⟨hidle, hmem⟩
    · refine exec_legal_not_illegalState (by simp [hready]) ?_ htop herr
      rw [hready, legalIn_ready]
      exact decide_eq_true hmem
    · refine exec_legal_not_illegalState (by simp [hidle]) ?_ htop herr
      rw [hidle, legalIn_idle]
      exact decide_eq_true hmem

end Sys2Proof.Machine
end

section
/-! PROOFS. Unit 1, the truncating addition, and its command BIGADD (40_big_add.md R100 to R105).

The digit loop loses nothing: its output and its carry-out together are the exact sum (`addDigits_exact`). The laws of
`add_trunc` are the quotient and the remainder of that equation; BIGADD adds what its operands are in the digit space. -/

namespace Sys2Proof.Machine

/-! ## The digit loop (R101, R102, R105) -/

/-- One round of the digit loop: the sum's low digit goes out, the rest is the carry into the next digit (R101). -/
theorem addDigits_cons (o : Byte) (os is : List Byte) (c : Nat) :
    addDigits (o :: os) is c =
      let sum := o.toNat + (is.headD 0).toNat + c
      let rest := addDigits os is.tail (sum / 256)
      (BitVec.ofNat 8 (sum % 256) :: rest.1, rest.2) := rfl

/-- The zero extension of the input (R101): taking one digit off keeps the value. -/
theorem valDigits_eq_headD_tail (ds : List Byte) : valDigits ds = (ds.headD 0).toNat + 256 * valDigits ds.tail := by
  cases ds <;> rfl

/-- The output digits and the carry-out, weighted `256^W`, are the exact sum of the operands and the carry-in. -/
theorem addDigits_exact (os is : List Byte) (c : Nat) (hlen : is.length ≤ os.length) :
    valDigits (addDigits os is c).1 + 256 ^ os.length * (addDigits os is c).2 = valDigits os + valDigits is + c := by
  induction os generalizing is c with
  | nil =>
    obtain rfl : is = [] := List.eq_nil_of_length_eq_zero (Nat.le_zero.mp hlen)
    simp [addDigits]
  | cons o os ih =>
    have htail : is.tail.length ≤ os.length := by
      rw [List.length_tail]
      exact Nat.sub_le_of_le_add hlen
    have hrest := ih is.tail ((o.toNat + (is.headD 0).toNat + c) / 256) htail
    have hdigit (sum : Nat) : (BitVec.ofNat 8 (sum % 256)).toNat = sum % 256 := by simp
    rw [addDigits_cons, valDigits_eq_headD_tail is]
    simp only [valDigits_cons, List.length_cons, pow_succ', mul_assoc, hdigit]
    omega

/-- `add_trunc` loses nothing but the carry-out it reports. -/
theorem addTrunc_exact {os is : List Byte} (hlen : is.length ≤ os.length) :
    valDigits (addTrunc os is).out + 256 ^ os.length * (addTrunc os is).carry = valDigits os + valDigits is :=
  addDigits_exact os is 0 hlen

/-- R105: `add_trunc` is addition modulo `256^W`, and the carry-out counts the multiples of `256^W` discarded. -/
theorem addTrunc_carry_and_out {os is : List Byte} (hlen : is.length ≤ os.length) :
    (addTrunc os is).carry = (valDigits os + valDigits is) / 256 ^ os.length ∧
      valDigits (addTrunc os is).out = (valDigits os + valDigits is) % 256 ^ os.length := by
  have hout : valDigits (addTrunc os is).out < 256 ^ os.length := by
    simpa using valDigits_lt (addTrunc os is).out
  obtain ⟨hcarry, hmod⟩ := (Nat.div_mod_unique (by positivity)).mpr ⟨addTrunc_exact hlen, hout⟩
  exact ⟨hcarry.symm, hmod.symm⟩

theorem valDigits_lt_of_length_le {ds : List Byte} {W : Nat} (hlen : ds.length ≤ W) : valDigits ds < 256 ^ W :=
  (valDigits_lt ds).trans_le (Nat.pow_le_pow_right (by decide) hlen)

/-- Two operands of at most `W` digits have a sum below `2 * 256^W`: `c` is 0 or 1 (R102). -/
theorem addTrunc_carry_le_one {os is : List Byte} (hlen : is.length ≤ os.length) : (addTrunc os is).carry ≤ 1 := by
  have hos := valDigits_lt os
  have his := valDigits_lt_of_length_le hlen
  rw [(addTrunc_carry_and_out hlen).1, ← Nat.lt_succ_iff, Nat.div_lt_iff_lt_mul (by positivity)]
  omega

theorem siglen_valDigits_le (ds : List Byte) : siglen (valDigits ds) ≤ ds.length :=
  (siglen_le_iff _ _).mpr (valDigits_lt ds)

theorem siglen_eq_zero_iff (v : Nat) : siglen v = 0 ↔ v = 0 := by
  rw [← Nat.le_zero, siglen_le_iff, pow_zero, Nat.lt_one_iff]

theorem addTrunc_len_le (os is : List Byte) : (addTrunc os is).len ≤ os.length := by
  simpa using siglen_valDigits_le (addTrunc os is).out

/-- Settles O29. -/
theorem addTruncAddsModuloWidth : Obligations.AddTruncAddsModuloWidth := by
  intro os is hlen
  obtain ⟨hcarry, hout⟩ := addTrunc_carry_and_out hlen
  exact ⟨length_addTrunc os is, hout, hcarry, addTrunc_carry_le_one hlen, addTrunc_len os is, addTrunc_len_le os is,
    siglen_eq_zero_iff _⟩

/-! ## Slots as numbers (10_state.md R23) -/

/-- The low digits of a buffer hold its value modulo their weight. -/
theorem valDigits_take (ds : List Byte) (n : Nat) : valDigits (ds.take n) = valDigits ds % 256 ^ n := by
  induction ds generalizing n with
  | nil => simp
  | cons d ds ih =>
    cases n with
    | zero => simp [Nat.mod_one]
    | succ n =>
      have hd := d.isLt
      have hlow : (d.toNat + 256 * valDigits ds) % 256 = d.toNat := by omega
      have hhigh : (d.toNat + 256 * valDigits ds) / 256 = valDigits ds := by omega
      rw [List.take_succ_cons, valDigits_cons, valDigits_cons, ih, pow_succ', Nat.mod_mul, hlow, hhigh]

/-- A slot read at a narrower width is the low digits of the slot. -/
theorem Memory.readSlot_eq_take (m : Memory) (slot : Nat) {len width : Nat} (hlen : len ≤ width) :
    m.readSlot slot len = (m.readSlot slot width).take len := by
  rw [Memory.readSlot, Memory.readSlot, ← List.map_take, List.take_range, Nat.min_eq_left hlen]

/-- The low `len` digits of a slot hold its value modulo `256^len` (R104). -/
theorem valDigits_readSlot_low (s : State) (slot : Nat) {len : Nat} (hlen : len ≤ s.wT) :
    valDigits (s.digits.readSlot slot len) = s.slotVal slot % 256 ^ len := by
  rw [Memory.readSlot_eq_take _ _ hlen, valDigits_take]
  rfl

/-- A slot stored whole holds the value stored. -/
theorem slotVal_setSlot {s : State} {slot : Nat} {ds : List Byte} (hwf : s.digits.wf = true) (hds : ds.length = s.wT) :
    (s.setSlot slot ds).slotVal slot = valDigits ds := by
  have hread : (s.digits.writeSlot slot ds).readSlot slot s.wT = ds := hds ▸ Memory.readSlot_writeSlot hwf slot ds
  exact congrArg valDigits hread

/-- Storing a slot whole leaves every address that holds no active digit of it. -/
theorem read_setSlot_of_not_active {s : State} {slot a : Nat} {ds : List Byte} (hwf : s.digits.wf = true)
    (hds : ds.length = s.wT) (ha : ¬ s.IsActiveDigit slot a) : (s.setSlot slot ds).digits.read a = s.digits.read a := by
  refine (Memory.read_writeSlot hwf slot ds a).trans (if_neg fun hin => ha ⟨a - digitAddr slot 0, ?_⟩)
  unfold digitAddr at *
  omega

/-! ## BIGADD (R104) -/

theorem length_bigAddOf (s : State) (dst src len : Nat) : (s.bigAddOf dst src len).out.length = s.wT :=
  (length_addTrunc _ _).trans (s.slotDigits_length dst)

/-- The low digits of a slot are never a longer operand than a slot (R100). -/
theorem length_readSlot_le_slotDigits {s : State} (dst src : Nat) {len : Nat} (hlen : len ≤ s.wT) :
    (s.digits.readSlot src len).length ≤ (s.slotDigits dst).length := by
  rwa [Memory.length_readSlot, s.slotDigits_length]

/-- The addition BIGADD makes, on the slots' values; both operands are read first, so `dst = src` is no special case. -/
theorem bigAddOf_carry_and_out {s : State} (dst src : Nat) {len : Nat} (hlen : len ≤ s.wT) :
    (s.bigAddOf dst src len).carry = (s.slotVal dst + s.slotVal src % 256 ^ len) / 256 ^ s.wT ∧
      valDigits (s.bigAddOf dst src len).out = (s.slotVal dst + s.slotVal src % 256 ^ len) % 256 ^ s.wT := by
  have h := addTrunc_carry_and_out (length_readSlot_le_slotDigits dst src hlen)
  rwa [s.slotDigits_length, valDigits_readSlot_low s src hlen] at h

/-- RESULT of BIGADD holds the carry bit and the length without loss, for every width a build can have (00_scope.md R9). -/
theorem toNat_bigAddResult {s : State} (dst src : Nat) {len : Nat} (hlen : len ≤ s.wT) (hm : s.m ≤ 65525) :
    (bigAddResult (s.bigAddOf dst src len)).toNat =
      (s.bigAddOf dst src len).carry + 65536 * siglen (valDigits (s.bigAddOf dst src len).out) := by
  have hcarry : (s.bigAddOf dst src len).carry ≤ 1 := addTrunc_carry_le_one (length_readSlot_le_slotDigits dst src hlen)
  have hsig : (s.bigAddOf dst src len).len = siglen (valDigits (s.bigAddOf dst src len).out) := addTrunc_len _ _
  have hfits : (s.bigAddOf dst src len).len ≤ s.wT := (addTrunc_len_le _ _).trans_eq (s.slotDigits_length dst)
  have hwT : s.wT = s.m + 10 := rfl
  rw [bigAddResult, BitVec.toNat_ofNat, ← hsig, Nat.mod_eq_of_lt (by omega)]
  omega

theorem exec_bigAdd_own {s : State} {dst src len : Nat} (hidle : s.state = .idle) (hdst : dst ≤ 10) (hsrc : src ≤ 10)
    (hlen : len ≤ s.wT) : exec (.bigAdd dst src len) s = .next (bigAddStep dst src len s) := by
  refine checked_own _ (by simp [hidle]) (by simp [legalIn, hidle]) ?_
  simp [operandsInRange, termSlotOk_iff, hdst, hsrc, hlen]

/-- Settles O38. -/
theorem bigAddAddsSlots : Obligations.BigAddAddsSlots := by
  intro s dst src len hidle hdst hsrc hlen hm hwf
  have hwidth := length_bigAddOf s dst src len
  have hval : (bigAddStep dst src len s).slotVal dst = valDigits (s.bigAddOf dst src len).out :=
    slotVal_setSlot hwf hwidth
  refine ⟨_, exec_bigAdd_own hidle hdst hsrc hlen, rfl, ?value, ?result, ?frame⟩
  case value => exact hval.trans (bigAddOf_carry_and_out dst src hlen).2
  case result =>
    rw [hval, ← (bigAddOf_carry_and_out dst src hlen).1]
    exact toNat_bigAddResult dst src hlen hm
  case frame => exact fun a ha => read_setSlot_of_not_active hwf hwidth ha

end Sys2Proof.Machine
end

section
/-! PROOFS. Unit 2, squaring with a fold at the significant length (41_squareover.md R121 to R123), and its command
SENS_SQFOLD (R124).

The square of `x` is below `256^L * 256^L` for `L = siglen x`, so its high half needs no reduction: `sqfold x` is the
remainder of the square by `256^L` plus its quotient (`sqfold_eq`), the two halves the schoolbook procedure adds. -/

namespace Sys2Proof.Machine

/-! ## The significant length from below (00_scope.md R12) -/

theorem lt_siglen_iff (v L : Nat) : L < siglen v ↔ 256 ^ L ≤ v := by
  rw [← Nat.not_le, siglen_le_iff, Nat.not_lt]

theorem siglen_eq_succ {v L : Nat} (hlow : 256 ^ L ≤ v) (hhigh : v < 256 ^ (L + 1)) : siglen v = L + 1 :=
  le_antisymm ((siglen_le_iff _ _).mpr hhigh) ((lt_siglen_iff _ _).mpr hlow)

/-- The least value of `L` digits; the greatest is `256^L - 1`. -/
theorem siglen_pow (L : Nat) : siglen (256 ^ L) = L + 1 :=
  siglen_eq_succ le_rfl (Nat.pow_lt_pow_right (by decide) L.lt_succ_self)

theorem siglen_pow_sub_one (L : Nat) : siglen (256 ^ L - 1) = L := by
  cases L with
  | zero => rfl
  | succ L =>
    have hpos : 0 < 256 ^ L := by positivity
    apply siglen_eq_succ <;> omega

/-! ## Square-and-fold as remainder and quotient of the square (R121) -/

theorem square_lt_pow_siglen (x : Nat) : x * x < 256 ^ siglen x * 256 ^ siglen x :=
  Nat.mul_self_lt_mul_self (lt_pow_siglen x)

theorem square_div_lt (x : Nat) : x * x / 256 ^ siglen x < 256 ^ siglen x :=
  Nat.div_lt_of_lt_mul (square_lt_pow_siglen x)

theorem sqfold_eq (x : Nat) : sqfold x = x * x % 256 ^ siglen x + x * x / 256 ^ siglen x :=
  congrArg (x * x % 256 ^ siglen x + ·) (Nat.mod_eq_of_lt (square_div_lt x))

/-- Any way to write the square with a low half below the fold point gives the fold. -/
theorem sqfold_of_halves {x lo hi : Nat} (hsquare : lo + 256 ^ siglen x * hi = x * x) (hlo : lo < 256 ^ siglen x) :
    sqfold x = lo + hi := by
  obtain ⟨hdiv, hmod⟩ := (Nat.div_mod_unique (by positivity)).mpr ⟨hsquare, hlo⟩
  rw [sqfold_eq, hmod, hdiv]

/-! ## The laws (R123) -/

theorem sqfold_lt (x : Nat) : sqfold x < 2 * 256 ^ siglen x := by
  have hlo : x * x % 256 ^ siglen x < 256 ^ siglen x := Nat.mod_lt _ (by positivity)
  have hhi := square_div_lt x
  rw [sqfold_eq]
  omega

theorem two_mul_pow_lt_pow_succ (W : Nat) : 2 * 256 ^ W < 256 ^ (W + 1) := by
  have hpos : 0 < 256 ^ W := by positivity
  omega

theorem two_mul_pow_mono {L W : Nat} (hW : L ≤ W) : 2 * 256 ^ L ≤ 2 * 256 ^ W :=
  Nat.mul_le_mul_left 2 (Nat.pow_le_pow_right (by decide) hW)

/-- R123 (f): a value of at most `W` digits has a fold of at most `W + 1` digits. -/
theorem sqfold_lt_pow_succ {x W : Nat} (hW : siglen x ≤ W) : sqfold x < 256 ^ (W + 1) :=
  calc
    sqfold x < 2 * 256 ^ siglen x := sqfold_lt x
    _ ≤ 2 * 256 ^ W := two_mul_pow_mono hW
    _ < 256 ^ (W + 1) := two_mul_pow_lt_pow_succ W

/-- R123 (a). -/
theorem siglen_sqfold_le (x : Nat) : siglen (sqfold x) ≤ siglen x + 1 :=
  (siglen_le_iff _ _).mpr (sqfold_lt_pow_succ le_rfl)

/-- R123 (b): both halves of the square are 0 only when the square is. -/
theorem sqfold_eq_zero_iff (x : Nat) : sqfold x = 0 ↔ x = 0 := by
  have hsquare := Nat.mod_add_div (x * x) (256 ^ siglen x)
  rw [sqfold_eq, Nat.add_eq_zero_iff]
  constructor
  · rintro ⟨hmod, hdiv⟩
    rw [hmod, hdiv, Nat.mul_zero] at hsquare
    exact mul_self_eq_zero.mp hsquare.symm
  · rintro rfl
    simp

/-- R123 (c): with `L + 2` digits in `x`, the square is at least `256^(2L + 2)`, so its high half is at least `256^L`. -/
theorem pow_le_sqfold {x L : Nat} (hL : siglen x = L + 2) : 256 ^ L ≤ sqfold x := by
  have hx : 256 ^ (L + 1) ≤ x := (lt_siglen_iff x (L + 1)).mp (by omega)
  have hsquare : 256 ^ L * 256 ^ siglen x ≤ x * x :=
    calc
      256 ^ L * 256 ^ siglen x = 256 ^ (L + 1) * 256 ^ (L + 1) := by rw [hL]; ring
      _ ≤ x * x := Nat.mul_self_le_mul_self hx
  rw [sqfold_eq]
  exact ((Nat.le_div_iff_mul_le (by positivity)).mpr hsquare).trans (Nat.le_add_left _ _)

/-- R123 (c): the length can shrink by one digit. -/
theorem sqfold_pow_succ (L : Nat) : sqfold (256 ^ (L + 1)) = 256 ^ L := by
  have hsquare : 0 + 256 ^ siglen (256 ^ (L + 1)) * 256 ^ L = 256 ^ (L + 1) * 256 ^ (L + 1) := by
    rw [siglen_pow]
    ring
  rw [sqfold_of_halves hsquare (by positivity), Nat.zero_add]

/-- R123 (d): for one digit the fold point is 256. -/
theorem sqfold_of_one_digit {x : Nat} (hx : siglen x = 1) : sqfold x = x * x % 256 + x * x / 256 := by
  rw [sqfold_eq, hx, pow_one]

/-- R123 (e): `(b + 1)^2 = 1 + (b + 2) * b`, for `b + 2 = 256^L`. -/
theorem sqfold_pow_sub_one (L : Nat) : sqfold (256 ^ L - 1) = 256 ^ L - 1 := by
  cases L with
  | zero => rfl
  | succ L =>
    have hpos : 0 < 256 ^ L := by positivity
    obtain ⟨b, hb⟩ : ∃ b, 256 ^ (L + 1) = b + 2 := Nat.exists_eq_add_of_le' (by omega)
    have hsquare : 1 + 256 ^ siglen (256 ^ (L + 1) - 1) * b = (256 ^ (L + 1) - 1) * (256 ^ (L + 1) - 1) := by
      rw [siglen_pow_sub_one, hb, Nat.add_sub_assoc (by decide)]
      ring
    rw [sqfold_of_halves hsquare (by rw [siglen_pow_sub_one]; omega)]
    omega

/-- Settles O30. -/
theorem sqfoldLaws : Obligations.SqfoldLaws := by
  refine ⟨siglen_sqfold_le, sqfold_eq_zero_iff, ?lower, ?least, fun _ => sqfold_of_one_digit, by decide,
    sqfold_pow_sub_one, fun x W hW => ⟨sqfold_lt x, two_mul_pow_mono hW, two_mul_pow_lt_pow_succ W⟩⟩
  case lower =>
    intro x hx
    have hlow : 256 ^ (siglen x - 2) ≤ sqfold x := pow_le_sqfold (by omega)
    have hlen := (lt_siglen_iff _ _).mpr hlow
    exact ⟨hlow, by omega⟩
  case least =>
    intro L hL
    obtain ⟨L, rfl⟩ := Nat.exists_eq_add_of_le' hL
    exact sqfold_pow_succ L

/-! ## The schoolbook procedure (R122) -/

theorem toNat_digit (v k : Nat) : (digit v k).toNat = v / 256 ^ k % 256 := by
  simp [digit]

/-- The accumulator after `i` rounds is `x` times the `i` low digits of `x`. -/
theorem schoolbookAcc_eq (x i : Nat) : schoolbookAcc x i = x * (x % 256 ^ i) := by
  induction i with
  | zero => simp [schoolbookAcc, Nat.mod_one]
  | succ i ih =>
    rw [schoolbookAcc, ih, toNat_digit, Nat.mod_pow_succ]
    ring

theorem schoolbookAcc_siglen (x : Nat) : schoolbookAcc x (siglen x) = x * x := by
  rw [schoolbookAcc_eq, Nat.mod_eq_of_lt (lt_pow_siglen x)]

/-- No round leaves the accumulator's `2 * W_S` digits. -/
theorem schoolbookAcc_lt {x W : Nat} (hW : siglen x ≤ W) (i : Nat) : schoolbookAcc x i < 256 ^ (2 * W) := by
  have hx : x < 256 ^ W := (siglen_le_iff x W).mp hW
  calc
    schoolbookAcc x i = x * (x % 256 ^ i) := schoolbookAcc_eq x i
    _ ≤ x * x := Nat.mul_le_mul_left x (Nat.mod_le _ _)
    _ < 256 ^ W * 256 ^ W := Nat.mul_self_lt_mul_self hx
    _ = 256 ^ (2 * W) := by rw [← pow_add, two_mul]

/-- `SCR` holds `x` times one digit in `W_S + 1` digits. -/
theorem mul_digit_lt {x W : Nat} (hW : siglen x ≤ W) (i : Nat) : x * (digit x i).toNat < 256 ^ (W + 1) :=
  Nat.mul_lt_mul'' ((siglen_le_iff x W).mp hW) (digit x i).isLt

/-- The digits above the low `n` hold the value divided by the weight of digit `n`. -/
theorem valDigits_drop (ds : List Byte) (n : Nat) : valDigits (ds.drop n) = valDigits ds / 256 ^ n := by
  induction ds generalizing n with
  | nil => simp
  | cons d ds ih =>
    cases n with
    | zero => simp
    | succ n =>
      have hd := d.isLt
      have hhigh : (d.toNat + 256 * valDigits ds) / 256 = valDigits ds := by omega
      rw [List.drop_succ_cons, ih, valDigits_cons, pow_succ', ← Nat.div_div_eq_div_mul, hhigh]

theorem valDigits_zeros (n : Nat) : valDigits (List.replicate n 0) = 0 := by
  induction n with
  | zero => rfl
  | succ n ih => simpa [List.replicate_succ] using ih

/-- Leading zero digits do not change the value (00_scope.md R11). -/
theorem valDigits_append_zeros (ds : List Byte) (n : Nat) : valDigits (ds ++ List.replicate n 0) = valDigits ds := by
  induction ds with
  | nil => exact valDigits_zeros n
  | cons d ds ih => rw [List.cons_append, valDigits_cons, ih, valDigits_cons]

/-- The low half the procedure adds: the accumulator's `L` low digits, extended with zeros to the adder's width. -/
def schoolbookLow (width x : Nat) : List Byte :=
  (toDigits (2 * siglen x) (schoolbookAcc x (siglen x))).take (siglen x) ++ List.replicate (width - siglen x) 0

/-- The high half the procedure adds: the accumulator's digits `L` and above. -/
def schoolbookHigh (x : Nat) : List Byte := (toDigits (2 * siglen x) (schoolbookAcc x (siglen x))).drop (siglen x)

theorem schoolbookFold_eq (width x : Nat) :
    schoolbookFold width x = addTrunc (schoolbookLow width x) (schoolbookHigh x) := rfl

theorem valDigits_square (x : Nat) : valDigits (toDigits (2 * siglen x) (schoolbookAcc x (siglen x))) = x * x := by
  rw [valDigits_toDigits, Nat.mod_eq_of_lt (schoolbookAcc_lt le_rfl _), schoolbookAcc_siglen]

theorem valDigits_schoolbookLow (width x : Nat) : valDigits (schoolbookLow width x) = x * x % 256 ^ siglen x := by
  rw [schoolbookLow, valDigits_append_zeros, valDigits_take, valDigits_square]

theorem valDigits_schoolbookHigh (x : Nat) : valDigits (schoolbookHigh x) = x * x / 256 ^ siglen x := by
  rw [schoolbookHigh, valDigits_drop, valDigits_square]

theorem length_schoolbookLow {width x : Nat} (hwidth : siglen x ≤ width) : (schoolbookLow width x).length = width := by
  simp only [schoolbookLow, List.length_append, List.length_take, length_toDigits, List.length_replicate]
  omega

theorem length_schoolbookHigh (x : Nat) : (schoolbookHigh x).length = siglen x := by
  simp only [schoolbookHigh, List.length_drop, length_toDigits]
  omega

/-- The halves' sum fits the adder's `W_S + 1` digits, so nothing is carried out and the output is the sum itself. -/
theorem schoolbookFold_value {x W : Nat} (hW : siglen x ≤ W) :
    valDigits (schoolbookFold (W + 1) x).out = sqfold x ∧ (schoolbookFold (W + 1) x).carry = 0 := by
  have hlow : (schoolbookLow (W + 1) x).length = W + 1 := length_schoolbookLow (by omega)
  have hhigh : (schoolbookHigh x).length ≤ (schoolbookLow (W + 1) x).length := by
    rw [hlow, length_schoolbookHigh]
    omega
  have hsum : valDigits (schoolbookLow (W + 1) x) + valDigits (schoolbookHigh x) = sqfold x := by
    rw [valDigits_schoolbookLow, valDigits_schoolbookHigh, sqfold_eq]
  obtain ⟨hcarry, hout⟩ := addTrunc_carry_and_out hhigh
  rw [hsum, hlow] at hcarry hout
  rw [schoolbookFold_eq, hcarry, hout]
  exact ⟨Nat.mod_eq_of_lt (sqfold_lt_pow_succ hW), Nat.div_eq_of_lt (sqfold_lt_pow_succ hW)⟩

/-- Settles O31. -/
theorem schoolbookComputesSqfold : Obligations.SchoolbookComputesSqfold := fun x _ hW =>
  ⟨fun i _ => mul_digit_lt hW i, fun i _ => schoolbookAcc_lt hW i, schoolbookAcc_siglen x, schoolbookFold_value hW⟩

/-! ## SENS_SQFOLD (R124) -/

/-- SENS is one digit wider than the values unit 2 takes (00_scope.md R8). -/
theorem State.wS_succ (s : State) : s.wS + 1 = s.wT := rfl

/-- A value that fits the Sensitivity value's digits is stored without loss. -/
theorem sensVal_setSens {s : State} {v : Nat} (hwf : s.digits.wf = true) (hv : v < 256 ^ s.wT) :
    (s.setSens v).sensVal = v := by
  have hstored : (s.setSens v).sensVal = valDigits (toDigits s.wT v) := slotVal_setSlot hwf (length_toDigits _ _)
  rw [hstored, valDigits_toDigits, Nat.mod_eq_of_lt hv]

/-- A length within the slots' width is a 32-bit word without loss: KEY_LEN has 16 bits (10_state.md R43). -/
theorem toNat_ofNat_of_le_wT {s : State} {n : Nat} (hn : n ≤ s.wT) : (BitVec.ofNat 32 n).toNat = n := by
  have hm : s.m < 65536 := s.keyLen.isLt
  have hwT : s.wT = s.m + 10 := rfl
  rw [BitVec.toNat_ofNat, Nat.mod_eq_of_lt (by omega)]

theorem exec_sensSqfold_own {s : State} (hidle : s.state = .idle) : exec .sensSqfold s = .next (sensSqfoldStep s) :=
  checked_own _ (by simp [hidle]) (by simp [legalIn, hidle]) rfl

theorem sensSqfoldStep_fits {s : State} (hlen : siglen s.sensVal ≤ s.wS) :
    sensSqfoldStep s =
      { s.setSens (sqfold s.sensVal) with result := BitVec.ofNat 32 (siglen (sqfold s.sensVal)) }.complete :=
  if_neg hlen.not_gt

theorem sensSqfoldStep_overflow {s : State} (hlen : s.wS < siglen s.sensVal) :
    sensSqfoldStep s = s.raise (sensOverflow s s.sensVal) := if_pos hlen

/-- Settles O41. -/
theorem sensSqfoldFoldsSquare : Obligations.SensSqfoldFoldsSquare := by
  intro s hidle hwf
  constructor
  · intro hlen
    have hfits : sqfold s.sensVal < 256 ^ s.wT := s.wS_succ ▸ sqfold_lt_pow_succ hlen
    have hvalue : (s.setSens (sqfold s.sensVal)).sensVal = sqfold s.sensVal := sensVal_setSens hwf hfits
    have hexec := exec_sensSqfold_own hidle
    rw [sensSqfoldStep_fits hlen] at hexec
    refine ⟨_, hexec, rfl, ?value, ?result, ?frame⟩
    case value => exact hvalue
    case result => exact toNat_ofNat_of_le_wT ((siglen_le_iff _ _).mpr hfits)
    case frame => exact fun a ha => read_setSlot_of_not_active hwf (length_toDigits _ _) ha
  · intro hlen
    have hexec := exec_sensSqfold_own hidle
    rw [sensSqfoldStep_overflow hlen] at hexec
    exact ⟨_, hexec, raise_faultedLike s _⟩

end Sys2Proof.Machine
end

section
/-! PROOFS. Unit 3, the Sensitivity value and its commands (42_sensitivity.md R141 to R146), the seeding of the chain (R147,
R148), and OPEN (43_keygen_fsm.md R163, 44_xform_engine.md R190).

A sum that fits is stored as the sum itself (`addSens_fits`), so each of unit 3's operations is one store of a number to SENS
or one copy of SENS to a slot. Seeding is then one invariant, `State.Seeded`, kept by every round; no round overflows, since
the sum of two consecutive seed terms gains at most one digit a round (`seedTerm_sum_lt`). -/

namespace Sys2Proof.Machine

/-! ## Slots beside the one stored to (10_state.md R23) -/

/-- No slot reaches into the next one's addresses: KEY_LEN has 16 bits (10_state.md R43). -/
theorem State.wT_lt_slotStride (s : State) : s.wT < slotStride := by
  have hm : s.m < 65536 := s.keyLen.isLt
  have hwT : s.wT = s.m + 10 := rfl
  unfold slotStride
  omega

/-- A slot's value is in the digit space and the width alone. -/
theorem slotVal_congr {s t : State} (hdigits : t.digits = s.digits) (hkey : t.keyLen = s.keyLen) (slot : Nat) :
    t.slotVal slot = s.slotVal slot := by
  simp only [State.slotVal, State.slotDigits, State.wT, State.m, hdigits, hkey]

theorem wf_setSlot {s : State} (hwf : s.digits.wf = true) (slot : Nat) (ds : List Byte) :
    (s.setSlot slot ds).digits.wf = true := Memory.wf_writeSlot hwf slot ds

/-- Storing a slot whole leaves the value of every other slot. -/
theorem slotVal_setSlot_ne {s : State} {slot other : Nat} {ds : List Byte} (hwf : s.digits.wf = true)
    (hds : ds.length = s.wT) (hne : other ≠ slot) : (s.setSlot slot ds).slotVal other = s.slotVal other := by
  have hstride := s.wT_lt_slotStride.le
  exact congrArg valDigits (Memory.readSlot_writeSlot_ne hwf hne ds (hds.trans_le hstride) hstride)

theorem read_setSlot_digit {s : State} {slot k : Nat} {ds : List Byte} (hwf : s.digits.wf = true) (hk : k < ds.length) :
    (s.setSlot slot ds).digits.read (digitAddr slot k) = ds.getD k 0 := by
  have hin : digitAddr slot 0 ≤ digitAddr slot k ∧ digitAddr slot k < digitAddr slot ds.length := by
    unfold digitAddr
    omega
  have hoff : digitAddr slot k - digitAddr slot 0 = k := Nat.add_sub_add_left _ _ _ |>.trans k.sub_zero
  rw [State.setSlot, Memory.read_writeSlot hwf, if_pos hin, hoff]

/-- An active digit of one slot is no active digit of another. -/
theorem not_isActiveDigit_of_ne {s : State} {slot other k : Nat} (hk : k < s.wT) (hne : slot ≠ other) :
    ¬ s.IsActiveDigit other (digitAddr slot k) := by
  rintro ⟨j, hj, heq⟩
  have hstride := s.wT_lt_slotStride
  exact hne ((digitAddr_eq_iff (hk.trans hstride) (hj.trans hstride)).mp heq).1

/-! ## Load, add and extract (R141 to R143) -/

/-- A value of `W_S` digits fits the `W_T` digits of SENS. -/
theorem lt_pow_wT_of_lt_pow_wS {s : State} {v : Nat} (hv : v < 256 ^ s.wS) : v < 256 ^ s.wT :=
  hv.trans_le (Nat.pow_le_pow_right (by decide) (Nat.sub_le _ _))

theorem loadSens_fits {s : State} {v : Nat} (hlen : siglen v ≤ s.wS) : s.loadSens v = .ok (s.setSens v) :=
  if_neg hlen.not_gt

theorem loadSens_overflow {s : State} {v : Nat} (hlen : s.wS < siglen v) : s.loadSens v = .error (sensOverflow s v) :=
  if_pos hlen

/-- The truncating sum of SENS and a slot, as the digits of the exact sum (R142). -/
theorem addTrunc_slots_eq_toDigits {s : State} {dst src : Nat} (hsum : s.slotVal dst + s.slotVal src < 256 ^ s.wT) :
    (addTrunc (s.slotDigits dst) (s.slotDigits src)).out = toDigits s.wT (s.slotVal dst + s.slotVal src) := by
  have hdst := s.slotDigits_length dst
  have hlen : (s.slotDigits src).length ≤ (s.slotDigits dst).length := by rw [hdst, s.slotDigits_length]
  have hval : valDigits (addTrunc (s.slotDigits dst) (s.slotDigits src)).out = s.slotVal dst + s.slotVal src := by
    rw [(addTrunc_carry_and_out hlen).2, hdst]
    exact Nat.mod_eq_of_lt hsum
  rw [← hval, ← hdst, ← length_addTrunc (s.slotDigits dst) (s.slotDigits src), toDigits_valDigits]

/-- A sum of at most `W_S` digits is stored as it is: nothing is carried out (R142). -/
theorem addSens_fits {s : State} {slot : Nat} (hsum : s.sensVal + s.slotVal slot < 256 ^ s.wS) :
    s.addSens slot = .ok (s.setSens (s.sensVal + s.slotVal slot)) := by
  rw [State.addSens, if_neg hsum.not_ge, addTrunc_slots_eq_toDigits (lt_pow_wT_of_lt_pow_wS hsum)]
  rfl

theorem addSens_overflow {s : State} {slot : Nat} (hsum : 256 ^ s.wS ≤ s.sensVal + s.slotVal slot) :
    s.addSens slot = .error (sensOverflow s (s.sensVal + s.slotVal slot)) := if_pos hsum

theorem slotVal_extractSens {s : State} (hwf : s.digits.wf = true) (slot : Nat) :
    (s.extractSens slot).slotVal slot = s.sensVal := slotVal_setSlot hwf (s.slotDigits_length _)

/-- SENS is unchanged by a copy to a term slot (R143). -/
theorem sensVal_extractSens {s : State} {slot : Nat} (hwf : s.digits.wf = true) (hslot : slot ≤ 10) :
    (s.extractSens slot).sensVal = s.sensVal :=
  slotVal_setSlot_ne hwf (s.slotDigits_length _) (Nat.lt_succ_of_le hslot).ne'

/-! ## SENS_LOAD, SENS_ADD and SENS_EXTRACT (R144 to R146) -/

/-- In IDLE a command that is legal there, its operands in range, is its own step (30_encoding.md R70). -/
theorem exec_own_of_idle {s : State} {i : Instr} (hidle : s.state = .idle) (hlegal : legalIn i .idle = true)
    (hrange : operandsInRange s.wT i = true) : exec i s = .next (ownStep i s) := by
  rw [exec_eq_checked]
  exact checked_own _ (by simp [hidle]) (hidle.symm ▸ hlegal) hrange

theorem digits_completeWithSensLen (s : State) : s.completeWithSensLen.digits = s.digits := rfl

theorem sensVal_completeWithSensLen (s : State) : s.completeWithSensLen.sensVal = s.sensVal := slotVal_congr rfl rfl _

theorem result_completeWithSensLen (s : State) : s.completeWithSensLen.result = BitVec.ofNat 32 (siglen s.sensVal) := rfl

/-- The end SENS_LOAD and SENS_ADD share: SENS holds `v`, RESULT its length, and nothing else is stored. -/
theorem completeWithSensLen_setSens {s t : State} {v : Nat} (hwf : s.digits.wf = true) (hv : v < 256 ^ s.wT)
    (ht : t = (s.setSens v).completeWithSensLen) :
    t = { s.completedLike t with digits := t.digits, result := t.result } ∧ t.sensVal = v ∧ t.result.toNat = siglen v ∧
      ∀ a, ¬ s.IsActiveDigit 11 a → t.digits.read a = s.digits.read a := by
  subst ht
  have hvalue : (s.setSens v).sensVal = v := sensVal_setSens hwf hv
  refine ⟨rfl, (sensVal_completeWithSensLen _).trans hvalue, ?result, ?frame⟩
  case result =>
    rw [result_completeWithSensLen, hvalue]
    exact toNat_ofNat_of_le_wT ((siglen_le_iff _ _).mpr hv)
  case frame =>
    rw [digits_completeWithSensLen]
    exact fun a ha => read_setSlot_of_not_active hwf (length_toDigits _ _) ha

theorem sensLoadStep_fits {s : State} {src : Nat} (hlen : siglen (s.slotVal src) ≤ s.wS) :
    sensLoadStep src s = (s.setSens (s.slotVal src)).completeWithSensLen := by
  rw [sensLoadStep, loadSens_fits hlen]

theorem sensLoadStep_overflow {s : State} {src : Nat} (hlen : s.wS < siglen (s.slotVal src)) :
    sensLoadStep src s = s.raise (sensOverflow s (s.slotVal src)) := by
  rw [sensLoadStep, loadSens_overflow hlen]

/-- Settles O39. -/
theorem sensLoadLoadsSlot : Obligations.SensLoadLoadsSlot := by
  intro s src hidle hsrc hwf
  have hexec : exec (.sensLoad src) s = .next (sensLoadStep src s) :=
    exec_own_of_idle hidle rfl ((termSlotOk_iff src).mpr hsrc)
  constructor
  · intro hlen
    have hfits := lt_pow_wT_of_lt_pow_wS ((siglen_le_iff _ _).mp hlen)
    exact ⟨_, hexec, completeWithSensLen_setSens hwf hfits (sensLoadStep_fits hlen)⟩
  · intro hlen
    rw [sensLoadStep_overflow hlen] at hexec
    exact ⟨_, hexec, raise_faultedLike s _⟩

theorem sensAddStep_fits {s : State} {src : Nat} (hsum : s.sensVal + s.slotVal src < 256 ^ s.wS) :
    sensAddStep src s = (s.setSens (s.sensVal + s.slotVal src)).completeWithSensLen := by
  rw [sensAddStep, addSens_fits hsum]

theorem sensAddStep_overflow {s : State} {src : Nat} (hsum : 256 ^ s.wS ≤ s.sensVal + s.slotVal src) :
    sensAddStep src s = s.raise (sensOverflow s (s.sensVal + s.slotVal src)) := by
  rw [sensAddStep, addSens_overflow hsum]

/-- Settles O40. -/
theorem sensAddAddsSlot : Obligations.SensAddAddsSlot := by
  intro s src hidle hsrc hwf
  have hexec : exec (.sensAdd src) s = .next (sensAddStep src s) :=
    exec_own_of_idle hidle rfl ((termSlotOk_iff src).mpr hsrc)
  constructor
  · intro hsum
    exact ⟨_, hexec, completeWithSensLen_setSens hwf (lt_pow_wT_of_lt_pow_wS hsum) (sensAddStep_fits hsum)⟩
  · intro hsum
    rw [sensAddStep_overflow hsum] at hexec
    exact ⟨_, hexec, raise_faultedLike s _⟩

/-- Settles O42. -/
theorem sensExtractCopiesValue : Obligations.SensExtractCopiesValue := by
  intro s dst hidle hdst hwf
  have hwidth := s.slotDigits_length Config.sensSlot
  refine ⟨_, exec_own_of_idle hidle rfl ((termSlotOk_iff dst).mpr hdst), rfl, ?value, ?digits, ?result, ?frame⟩
  case value => exact slotVal_extractSens hwf dst
  case digits =>
    intro k hk
    exact (read_setSlot_digit hwf (hwidth.symm ▸ hk)).trans (Memory.getD_readSlot s.digits Config.sensSlot hk)
  case result => exact toNat_ofNat_of_le_wT (Nat.sub_le _ _)
  case frame => exact fun a ha => read_setSlot_of_not_active hwf hwidth ha

/-! ## The growth of the seed terms (R147, R148) -/

/-- The one step of the bound: a fold has at most one digit more, and so has its sum with a number no longer than its
operand. -/
theorem sqfold_add_lt {x y W : Nat} (hx : x < 256 ^ W) (hy : y < 256 ^ W) : sqfold x + y < 256 ^ (W + 1) := by
  have hfold : sqfold x < 2 * 256 ^ W := (sqfold_lt x).trans_le (two_mul_pow_mono ((siglen_le_iff x W).mpr hx))
  have hpow : 256 ^ (W + 1) = 256 ^ W * 256 := pow_succ _ _
  omega

/-- The sum that round `n` folds: each of its terms but the newest is part of the sum before. -/
theorem seedTerm_sum_lt {p m : Nat} (hp : p < 256 ^ m) (n : Nat) :
    seedTerm p (n + 1) + seedTerm p n < 256 ^ (m + 1 + n) := by
  induction n with
  | zero => exact sqfold_add_lt hp hp
  | succ n ih => exact sqfold_add_lt ih ((Nat.le_add_right _ _).trans_lt ih)

theorem seedTerm_lt {p m : Nat} (hp : p < 256 ^ m) (n : Nat) : seedTerm p n < 256 ^ (m + n) := by
  cases n with
  | zero => exact hp
  | succ n =>
    rw [← Nat.add_assoc, Nat.add_right_comm]
    exact (Nat.le_add_right _ _).trans_lt (seedTerm_sum_lt hp n)

/-- A number written with `n` bytes, the most significant first, is below `256^n`. -/
theorem sum_bytes_lt (f : Nat → Byte) (n : Nat) :
    ((List.range n).map fun i => (f i).toNat * 256 ^ (n - 1 - i)).sum < 256 ^ n := by
  induction n generalizing f with
  | zero => simp
  | succ n ih =>
    have hrest : ((List.range n).map fun i => (f (i + 1)).toNat * 256 ^ (n - (i + 1))).sum < 256 ^ n := by
      simpa only [Nat.sub_sub, Nat.add_comm 1] using ih fun i => f (i + 1)
    have hfirst : (f 0).toNat * 256 ^ n ≤ 255 * 256 ^ n := Nat.mul_le_mul_right _ (Nat.le_of_lt_succ (f 0).isLt)
    simp only [List.range_succ_eq_map, List.map_cons, List.map_map, List.sum_cons, Function.comp_def, Nat.succ_eq_add_one,
      Nat.add_sub_cancel, Nat.sub_zero, pow_succ]
    omega

theorem password_lt (s : State) : s.password < 256 ^ s.m := sum_bytes_lt s.keyByte s.m

/-! ## Seeding keeps its invariant (R147) -/

theorem OnlyDigits.m_eq {s t : State} (h : OnlyDigits s t) : t.m = s.m := by
  rw [h]
  rfl

theorem OnlyDigits.wT_eq {s t : State} (h : OnlyDigits s t) : t.wT = s.wT := congrArg (· + Config.padding) h.m_eq

theorem OnlyDigits.isActiveDigit_iff {s t : State} (h : OnlyDigits s t) (slot a : Nat) :
    t.IsActiveDigit slot a ↔ s.IsActiveDigit slot a := by
  rw [State.IsActiveDigit, h.wT_eq]
  rfl

/-- `t` is `s` with seed terms 0 to `i` stored in their slots, SENS used on the way, and no other digit changed. -/
structure State.TermsStored (s t : State) (i : Nat) : Prop where
  only : OnlyDigits s t
  wf : t.digits.wf = true
  terms : ∀ n ≤ i, t.slotVal n = seedTerm s.password n
  frame : ∀ a, (∀ slot ≤ i, ¬ s.IsActiveDigit slot a) → ¬ s.IsActiveDigit 11 a → t.digits.read a = s.digits.read a

/-- What a round of seeding starts from and ends in: SENS holds the newest term too (R147). -/
def State.Seeded (s t : State) (i : Nat) : Prop := s.TermsStored t i ∧ t.sensVal = seedTerm s.password i

/-- Step 1: T[0] gets the password. -/
def State.storePassword (s : State) : State := s.setSlot 0 (toDigits s.wT s.password)

/-- Step 2 never faults: the password has at most `m` digits (R141). -/
theorem siglen_password_le (s : State) : siglen s.password ≤ s.wS :=
  (siglen_le_iff _ _).mpr ((password_lt s).trans_le (Nat.pow_le_pow_right (by decide) (Nat.le_add_right s.m 9)))

theorem seed_eq (s : State) :
    s.seed =
      seedRounds 8 2
        (((s.storePassword.setSens s.password).setSens (sqfold (s.storePassword.setSens s.password).sensVal)).extractSens
          1) := by
  have hload : s.storePassword.loadSens s.password = .ok (s.storePassword.setSens s.password) :=
    loadSens_fits (siglen_password_le s)
  rw [State.seed, ← State.storePassword, hload]

theorem termsStored_storePassword {s : State} (hwf : s.digits.wf = true) : s.TermsStored s.storePassword 0 where
  only := onlyDigits_setSlot _ _ _
  wf := wf_setSlot hwf _ _
  terms n hn := by
    have hfits := lt_pow_wT_of_lt_pow_wS ((siglen_le_iff _ _).mp (siglen_password_le s))
    rw [Nat.le_zero.mp hn, State.storePassword, slotVal_setSlot hwf (length_toDigits _ _), valDigits_toDigits,
      Nat.mod_eq_of_lt hfits]
    rfl
  frame a hterms _ := read_setSlot_of_not_active hwf (length_toDigits _ _) (hterms 0 le_rfl)

/-- A store to SENS touches no term. -/
theorem State.TermsStored.setSens {s t : State} {i : Nat} (h : s.TermsStored t i) (hi : i ≤ 10) (v : Nat) :
    s.TermsStored (t.setSens v) i where
  only := h.only.trans (onlyDigits_setSens t v)
  wf := wf_setSlot h.wf _ _
  terms n hn := by
    have hne : n ≠ Config.sensSlot := (Nat.lt_succ_of_le (hn.trans hi)).ne
    exact (slotVal_setSlot_ne h.wf (length_toDigits _ _) hne).trans (h.terms n hn)
  frame a hterms hsens := by
    have hnot : ¬ t.IsActiveDigit 11 a := fun hact => hsens ((h.only.isActiveDigit_iff 11 a).mp hact)
    exact (read_setSlot_of_not_active h.wf (length_toDigits _ _) hnot).trans (h.frame a hterms hsens)

/-- Copying SENS to the next slot stores the next term, if SENS holds it. -/
theorem State.TermsStored.extractSens {s t : State} {i : Nat} (h : s.TermsStored t i) (hi : i < 10)
    (hsens : t.sensVal = seedTerm s.password (i + 1)) : s.Seeded (t.extractSens (i + 1)) (i + 1) := by
  have hwidth := t.slotDigits_length Config.sensSlot
  refine ⟨⟨h.only.trans (onlyDigits_extractSens t _), wf_setSlot h.wf _ _, ?terms, ?frame⟩, ?sens⟩
  case terms =>
    intro n hn
    rcases Nat.of_le_succ hn with hold | rfl
    · exact (slotVal_setSlot_ne h.wf hwidth (by omega)).trans (h.terms n hold)
    · exact (slotVal_extractSens h.wf _).trans hsens
  case frame =>
    intro a hterms hnotSens
    have hnot : ¬ t.IsActiveDigit (i + 1) a := fun hact =>
      hterms (i + 1) le_rfl ((h.only.isActiveDigit_iff _ a).mp hact)
    have hold := h.frame a (fun slot hslot => hterms slot (Nat.le_succ_of_le hslot)) hnotSens
    exact (read_setSlot_of_not_active h.wf hwidth hnot).trans hold
  case sens => exact (sensVal_extractSens h.wf hi).trans hsens

/-- The end every round shares: square-and-fold, then the copy, from a SENS whose fold is the next term. -/
theorem State.TermsStored.foldAndExtract {s t : State} {i : Nat} (h : s.TermsStored t i) (hi : i < 9)
    (hfold : sqfold t.sensVal = seedTerm s.password (i + 1)) :
    s.Seeded ((t.setSens (sqfold t.sensVal)).extractSens (i + 1)) (i + 1) := by
  refine (h.setSens (by omega) _).extractSens (by omega) ((sensVal_setSens h.wf ?_).trans hfold)
  have hterm := seedTerm_lt (password_lt s) (i + 1)
  have hwidth : s.m + (i + 1) ≤ s.wT := Nat.add_le_add_left (by omega : i + 1 ≤ 10) _
  rw [hfold, h.only.wT_eq]
  exact hterm.trans_le (Nat.pow_le_pow_right (by decide) hwidth)

/-- A round of step 4 never overflows, and stores the next term. -/
theorem State.Seeded.seedRound {s t : State} {i : Nat} (h : s.Seeded t (i + 1)) (hi : i < 8) :
    ∃ u, t.seedRound (i + 2) = .ok u ∧ s.Seeded u (i + 2) := by
  obtain ⟨hstored, hsens⟩ := h
  have hsum : t.sensVal + t.slotVal i = seedTerm s.password (i + 1) + seedTerm s.password i := by
    rw [hsens, hstored.terms i i.le_succ]
  have hfits : t.sensVal + t.slotVal i < 256 ^ t.wS := by
    have hwidth : s.m + 1 + i ≤ s.m + 9 := by omega
    have hwS : t.wS = s.m + 9 := congrArg (· - 1) hstored.only.wT_eq
    rw [hsum, hwS]
    exact (seedTerm_sum_lt (password_lt s) i).trans_le (Nat.pow_le_pow_right (by decide) hwidth)
  have hsummed : (t.setSens (t.sensVal + t.slotVal i)).sensVal = t.sensVal + t.slotVal i :=
    sensVal_setSens hstored.wf (lt_pow_wT_of_lt_pow_wS hfits)
  refine ⟨_, ?_, (hstored.setSens (by omega) (t.sensVal + t.slotVal i)).foldAndExtract (by omega) ?_⟩
  · rw [State.seedRound, Nat.add_sub_cancel, addSens_fits hfits]
  · rw [hsummed, hsum]
    rfl

theorem State.Seeded.seedRounds {s : State} (rounds : Nat) {t : State} {i : Nat} (h : s.Seeded t (i + 1))
    (hi : i + rounds ≤ 8) : ∃ u, seedRounds rounds (i + 2) t = (u, none) ∧ s.Seeded u (i + rounds + 1) := by
  induction rounds generalizing t i with
  | zero => exact ⟨t, rfl, h⟩
  | succ rounds ih =>
    obtain ⟨u, hround, hu⟩ := h.seedRound (by omega)
    obtain ⟨v, hrounds, hv⟩ := ih hu (by omega)
    refine ⟨v, ?_, ?_⟩
    · rw [Machine.seedRounds, hround]
      exact hrounds
    · rwa [Nat.add_right_comm i 1 rounds] at hv

/-- `seed()` always ends, with the ten seed terms in slots 0 to 9 and the last of them in SENS (R147). -/
theorem seed_seeded {s : State} (hwf : s.digits.wf = true) : ∃ t, s.seed = (t, none) ∧ s.Seeded t 9 := by
  have hfits := lt_pow_wT_of_lt_pow_wS ((siglen_le_iff _ _).mp (siglen_password_le s))
  have hloaded : (s.storePassword.setSens s.password).sensVal = s.password := sensVal_setSens (wf_setSlot hwf _ _) hfits
  have hstored := (termsStored_storePassword hwf).setSens (by decide) s.password
  have hone := hstored.foldAndExtract (by decide) (congrArg sqfold hloaded)
  rw [seed_eq]
  exact hone.seedRounds 8 le_rfl

/-- Settles O45. -/
theorem seedingNeverOverflows : Obligations.SeedingNeverOverflows := by
  refine ⟨fun p m hp n => (siglen_le_iff _ _).mpr (seedTerm_sum_lt hp n), fun s hwf => ?_⟩
  obtain ⟨t, hseed, _, hsens⟩ := seed_seeded hwf
  rw [hseed]
  exact ⟨rfl, hsens.trans_lt (seedTerm_lt (password_lt s) 9)⟩

/-! ## OPEN (43_keygen_fsm.md R163, 44_xform_engine.md R190) -/

/-- Slots past the last seeded term, SENS aside, keep their value. -/
theorem State.TermsStored.slotVal_later {s t : State} {i slot : Nat} (h : s.TermsStored t i) (hi : i < slot)
    (hslot : slot ≤ 10) : t.slotVal slot = s.slotVal slot := by
  refine congrArg valDigits ?_
  rw [State.slotDigits, h.only.wT_eq, State.slotDigits]
  refine List.map_congr_left fun k hk => ?_
  have hk : k < s.wT := List.mem_range.mp hk
  exact h.frame _ (fun other hother => not_isActiveDigit_of_ne hk (by omega)) (not_isActiveDigit_of_ne hk (by omega))

theorem slotVal_zeroSlots (s : State) (slot : Nat) : s.zeroSlots.slotVal slot = 0 := by
  have hzeros : s.zeroSlots.slotDigits slot = List.replicate s.wT 0 := by
    change (List.range s.wT).map (fun _ => (0 : Byte)) = List.replicate s.wT 0
    rw [List.map_const', List.length_range]
  rw [State.slotVal, hzeros, valDigits_zeros]

/-- Both OPENs are `open(mode)` in their mode (R191, R192). -/
theorem exec_open_own {s : State} {i : Instr} {mode : Mode}
    (hi : (i = .openEnc ∧ mode = .encrypt) ∨ (i = .openDec ∧ mode = .decrypt)) (hidle : s.state = .idle) :
    exec i s = .next (openStep mode s) := by
  rcases hi with ⟨rfl, rfl⟩ | ⟨rfl, rfl⟩
  · exact exec_own_of_idle hidle rfl rfl
  · exact exec_own_of_idle hidle rfl rfl

theorem openStep_of_seeded {s t : State} (mode : Mode) (hm : s.m ≠ 0) (hseed : s.zeroSlots.seed = (t, none)) :
    openStep mode s = (t.startView.startEngine mode).complete := by
  rw [openStep, if_neg hm, State.chainInit, hseed]

/-- The view of term 9 is its usable suffix, whose length VIEW_LEN holds whole (43_keygen_fsm.md R163, R164). -/
theorem toNat_viewLen_startView (s : State) : s.startView.viewLen.toNat = siglen (s.slotVal 9 % 256 ^ s.m) := by
  have hm : s.m < 2 ^ 16 := s.keyLen.isLt
  exact BitVec.toNat_ofNat .. |>.trans (Nat.mod_eq_of_lt ((s.usableLen_le _).trans_lt hm))

/-- The registers OPEN sets, over whatever digits seeding stored (R163, R190). -/
theorem opened_frame {s t : State} (mode : Mode) (h : OnlyDigits s t) :
    (t.startView.startEngine mode).complete =
      { s.completedLike (t.startView.startEngine mode).complete with
        digits := t.digits, n := 9, e := 9, viewLen := t.startView.viewLen
        viewCur := initialCursor s.initView t.startView.viewLen
        j := 0, pool := 0, prev := 0, mode := mode, dout := 0, state := .ready } := by
  rw [h]
  rfl

/-- Starting the engine stores no digit. -/
theorem slotVal_opened (s : State) (mode : Mode) (slot : Nat) :
    (s.startView.startEngine mode).complete.slotVal slot = s.slotVal slot := slotVal_congr (by simp) (by simp) slot

/-- Settles O43. -/
theorem openBuildsChain : Obligations.OpenBuildsChain := by
  intro s i mode hi hidle hm
  obtain ⟨t, hseed, hstored, hsens⟩ := seed_seeded (s := s.zeroSlots) rfl
  have hexec := exec_open_own hi hidle
  rw [openStep_of_seeded mode hm hseed] at hexec
  have honly : OnlyDigits s t := (onlyDigits_zeroSlots s).trans hstored.only
  refine ⟨_, hexec, ?terms, ?later, ?sens, ?view, ?frame, opened_frame mode honly⟩
  case terms => exact fun n hn => (slotVal_opened t mode n).trans (hstored.terms n hn)
  case later =>
    have hkept : t.slotVal 10 = s.zeroSlots.slotVal 10 := hstored.slotVal_later (by decide) le_rfl
    rw [slotVal_opened, hkept, slotVal_zeroSlots]
  case sens => exact (slotVal_opened t mode 11).trans hsens
  case view =>
    have hlen := toNat_viewLen_startView t
    rw [hstored.terms 9 le_rfl, honly.m_eq] at hlen
    exact hlen
  case frame => exact fun a ha => hstored.frame a (fun slot hslot => ha slot (by omega)) (ha 11 le_rfl)

end Sys2Proof.Machine
end

section
/-! PROOFS. Unit 4: key loading (43_keygen_fsm.md R160 to R162), the round of `next()` (R164, R165), the views it installs
(R169), and the life of the ring (R168): a live ring yields a term within ten rounds, a dead one never.

The round's arithmetic is said once (`slotVal_advanceTerm`), and the life of the ring follows from the recurrence modulo the
usable width: where the new term has no usable suffix, the terms 10 and 7 back cancel, so that if one of them is usable the
other is too (`ringAlive_advanceTerm`). Ten rounds without a yield would leave ten unusable terms in a live ring. -/

namespace Sys2Proof.Machine

/-! ## Key loading (R160 to R162) -/

/-- Settles O36. -/
theorem keyClearEmptiesKey : Obligations.KeyClearEmptiesKey := by
  intro s hidle
  exact ⟨keyClearStep s, exec_own_of_idle hidle rfl rfl, rfl, fun _ => rfl⟩

theorem keyPushStep_room {s : State} (b : Byte) (hroom : s.m ≠ s.mMax) :
    keyPushStep b s = { s with key := s.key.write s.m b, keyLen := s.keyLen + 1 }.complete := if_neg hroom

theorem keyPushStep_full {s : State} (b : Byte) (hfull : s.m = s.mMax) :
    keyPushStep b s = s.raise (allocationFault s) := if_pos hfull

/-- One byte more at the end makes the bytes before it weigh 256 times as much (10_state.md R22). -/
theorem password_append {s t : State} {b : Byte} (hm : t.m = s.m + 1)
    (hkey : ∀ i, t.keyByte i = if i = s.m then b else s.keyByte i) : t.password = 256 * s.password + b.toNat := by
  have hbefore : ∀ i ∈ List.range s.m,
      (t.keyByte i).toNat * 256 ^ (s.m - i) = 256 * ((s.keyByte i).toNat * 256 ^ (s.m - 1 - i)) := by
    intro i hi
    have hi : i < s.m := List.mem_range.mp hi
    have hexp : s.m - i = s.m - 1 - i + 1 := by omega
    rw [hkey, if_neg hi.ne, hexp, pow_succ]
    ring
  rw [State.password, hm, Nat.add_sub_cancel, List.range_succ, List.map_append, List.sum_append, List.map_congr_left hbefore,
    List.sum_map_mul_left]
  simp [State.password, hkey]

/-- Settles O37. -/
theorem keyPushAppendsByte : Obligations.KeyPushAppendsByte := by
  intro s b hidle hwf hlimit hle
  have hexec : exec (.keyPush b) s = .next (keyPushStep b s) := exec_own_of_idle hidle rfl rfl
  constructor
  · intro hroom
    rw [keyPushStep_room b hroom] at hexec
    refine ⟨_, hexec, rfl, ?_⟩
    generalize ht : State.complete _ = t
    have hm : t.m = s.m + 1 := by
      have hsmall : s.keyLen.toNat + 1 < 2 ^ 16 := by
        change s.m + 1 < 2 ^ 16
        omega
      exact ht ▸ toNat_add_one_of_lt hsmall
    have hkey : ∀ i, t.keyByte i = if i = s.m then b else s.keyByte i := ht ▸ Memory.read_write hwf s.m b
    exact ⟨hm, hkey, password_append hm hkey, password_lt t⟩
  · intro hfull
    rw [keyPushStep_full b hfull] at hexec
    exact ⟨_, hexec, raise_faultedLike s _⟩

/-! ## One round of `next()` (R164, R165) -/

/-- The term the next round makes. -/
abbrev State.nextTerm (s : State) : Nat :=
  (s.slotVal ((s.e.val + 2) % 11) + s.slotVal ((s.e.val + 5) % 11)) % 256 ^ s.wT

/-- The slot the next round stores to. -/
abbrev State.nextSlot (s : State) : Nat := (s.e.val + 1) % 11

theorem val_e_advanceTerm (s : State) : s.advanceTerm.e.val = s.nextSlot := Fin.val_add s.e 1

theorem ringSlot_succ (e : Fin 11) (d : Nat) : ringSlot (e + 1) d = (e.val + (1 + d)) % 11 := by
  rw [ringSlot, Fin.val_add, Config.ring]
  simp [Nat.add_assoc]

/-- What the round adds, slot by slot: the terms 10 and 7 back from the new one. -/
def State.roundSum (s : State) : AddResult :=
  addTrunc (s.slotDigits ((s.e.val + 2) % 11)) (s.slotDigits ((s.e.val + 5) % 11))

theorem advanceTerm_eq (s : State) :
    s.advanceTerm = { s.setSlot s.nextSlot s.roundSum.out with n := s.n + 1, e := s.e + 1 } := by
  rw [State.advanceTerm, ringSlot_succ, ringSlot_succ]
  rfl

theorem digits_advanceTerm (s : State) : s.advanceTerm.digits = (s.setSlot s.nextSlot s.roundSum.out).digits := by
  rw [advanceTerm_eq]

theorem length_roundSum (s : State) : s.roundSum.out.length = s.wT :=
  (length_addTrunc _ _).trans (s.slotDigits_length _)

theorem valDigits_roundSum (s : State) : valDigits s.roundSum.out = s.nextTerm := by
  have hlen : (s.slotDigits ((s.e.val + 5) % 11)).length ≤ (s.slotDigits ((s.e.val + 2) % 11)).length := by
    rw [s.slotDigits_length, s.slotDigits_length]
  have h := (addTrunc_carry_and_out hlen).2
  rwa [s.slotDigits_length] at h

theorem wf_advanceTerm {s : State} (hwf : s.digits.wf = true) : s.advanceTerm.digits.wf = true := by
  rw [digits_advanceTerm]
  exact wf_setSlot hwf _ _

theorem slotVal_advanceTerm_eq (s : State) (slot : Nat) :
    s.advanceTerm.slotVal slot = (s.setSlot s.nextSlot s.roundSum.out).slotVal slot :=
  slotVal_congr (digits_advanceTerm s) rfl slot

/-- The new term: the truncated sum of the terms 10 and 7 back. -/
theorem slotVal_advanceTerm {s : State} (hwf : s.digits.wf = true) : s.advanceTerm.slotVal s.nextSlot = s.nextTerm := by
  rw [slotVal_advanceTerm_eq, slotVal_setSlot hwf (length_roundSum s), valDigits_roundSum]

/-- Every other slot keeps its value. -/
theorem slotVal_advanceTerm_ne {s : State} {slot : Nat} (hwf : s.digits.wf = true) (hne : slot ≠ s.nextSlot) :
    s.advanceTerm.slotVal slot = s.slotVal slot := by
  rw [slotVal_advanceTerm_eq, slotVal_setSlot_ne hwf (length_roundSum s) hne]

theorem read_advanceTerm_of_not_active {s : State} {a : Nat} (hwf : s.digits.wf = true)
    (ha : ¬ s.IsActiveDigit s.nextSlot a) : s.advanceTerm.digits.read a = s.digits.read a := by
  rw [digits_advanceTerm]
  exact read_setSlot_of_not_active hwf (length_roundSum s) ha

theorem newestUsable_advanceTerm {s : State} (hwf : s.digits.wf = true) :
    s.advanceTerm.newestUsable = siglen (s.nextTerm % 256 ^ s.m) := by
  rw [State.newestUsable, val_e_advanceTerm, slotVal_advanceTerm hwf]
  rfl

/-- A yielded term's length fits the register VIEW_LEN: it is at most `m` (R169). -/
theorem toNat_viewLen_installView (s : State) : s.installView.viewLen.toNat = s.newestUsable := by
  have hm : s.m < 2 ^ 16 := s.keyLen.isLt
  exact BitVec.toNat_ofNat .. |>.trans (Nat.mod_eq_of_lt ((s.usableLen_le _).trans_lt hm))

/-- RESULT of CHAIN_NEXT holds the length as VIEW_LEN does (R170). -/
theorem setWidth_viewLen_installView (s : State) :
    s.installView.viewLen.setWidth 32 = BitVec.ofNat 32 s.newestUsable := by
  have hlen := toNat_viewLen_installView s
  have hm : s.newestUsable ≤ s.m := s.usableLen_le _
  have hfits : s.newestUsable ≤ s.wT := hm.trans (Nat.le_add_right _ _)
  apply BitVec.eq_of_toNat_eq
  rw [toNat_ofNat_of_le_wT hfits, toNat_zext _ (by decide), hlen]

theorem fetchRound_skip {s : State} (hskip : s.advanceTerm.newestUsable = 0) : s.fetchRound = s.advanceTerm :=
  if_pos hskip

theorem fetchRound_yield {s : State} (hyield : s.advanceTerm.newestUsable ≠ 0) :
    s.fetchRound = s.advanceTerm.installView := if_neg hyield

/-- A round as XFORM, RUN and CHAIN_NEXT make it, as one equation of states. -/
theorem termFetched_fetchRound {s : State} (hwf : s.digits.wf = true) : s.TermFetched s.fetchRound := by
  have hround : s.fetchRound.digits = s.advanceTerm.digits ∧ s.fetchRound.n = s.n + 1 ∧
      s.fetchRound.e = s.advanceTerm.e ∧ s.fetchRound.keyLen = s.advanceTerm.keyLen := by
    rcases fetchRound_cases s with ⟨_, h⟩ | ⟨_, h⟩ <;> rw [h] <;> exact ⟨rfl, rfl, rfl, rfl⟩
  obtain ⟨hdigits, hn, he, hkey⟩ := hround
  refine ⟨?term, hn, ?slot, ?frame, ?fields⟩
  case term => exact (slotVal_congr hdigits hkey _).trans (slotVal_advanceTerm hwf)
  case slot => exact (congrArg Fin.val he).trans (val_e_advanceTerm s)
  case frame =>
    rw [hdigits]
    exact fun a ha => read_advanceTerm_of_not_active hwf ha
  case fields =>
    rw [← newestUsable_advanceTerm hwf]
    rcases fetchRound_cases s with ⟨hskip, h⟩ | ⟨hyield, h⟩
    · rw [if_pos hskip, if_pos hskip, if_pos hskip, h]
      rfl
    · rw [if_neg hyield, if_neg hyield, if_neg hyield, h]
      rfl

/-! ## CHAIN_NEXT and XFORM at a round (R170, 44_xform_engine.md R194) -/

/-- In READY a command that is legal there, its operands in range, is its own step (30_encoding.md R70). -/
theorem exec_own_of_ready {s : State} {i : Instr} (hready : s.state = .ready) (hlegal : legalIn i .ready = true)
    (hrange : operandsInRange s.wT i = true) : exec i s = .next (ownStep i s) := by
  rw [exec_eq_checked]
  exact checked_own _ (by simp [hready]) (hready.symm ▸ hlegal) hrange

theorem chainNextStep_skip {s : State} (hskip : s.advanceTerm.newestUsable = 0) : chainNextStep s = s.advanceTerm := by
  rw [chainNextStep, if_pos hskip, fetchRound_skip hskip]

theorem chainNextStep_yield {s : State} (hyield : s.advanceTerm.newestUsable ≠ 0) :
    chainNextStep s =
      { s.advanceTerm.installView with result := s.advanceTerm.installView.viewLen.setWidth 32 }.complete := by
  rw [chainNextStep, if_neg hyield, fetchRound_yield hyield]

theorem xformStep_exhausted {s : State} (hview : s.viewExhausted = true) : xformStep s = s.fetchRound := if_pos hview

theorem viewExhausted_iff (s : State) : s.viewExhausted = true ↔ s.viewLen.toNat ≤ s.viewCur.toNat := by
  rw [State.viewExhausted, decide_eq_true_iff, BitVec.le_def]

/-- Settles O46: the round of `next()`, which completes the command where it yields. -/
theorem chainNextAdvancesChain : Obligations.ChainNextAdvancesChain := by
  intro s hready hwf
  have hexec : exec .chainNext s = .next (chainNextStep s) := exec_own_of_ready hready rfl rfl
  have hlen := newestUsable_advanceTerm hwf
  have hframe : ∀ a, ¬ s.IsActiveDigit s.nextSlot a → s.advanceTerm.digits.read a = s.digits.read a :=
    fun a ha => read_advanceTerm_of_not_active hwf ha
  by_cases hskip : s.advanceTerm.newestUsable = 0
  · rw [chainNextStep_skip hskip] at hexec
    exact ⟨_, hexec, slotVal_advanceTerm hwf, rfl, val_e_advanceTerm s, hframe,
      fun hne => absurd (hlen.symm.trans hskip) hne, fun _ => rfl⟩
  · rw [chainNextStep_yield hskip] at hexec
    refine ⟨_, hexec, ?term, rfl, val_e_advanceTerm s, hframe, fun _ => ?fields,
      fun heq => absurd (hlen.trans heq) hskip⟩
    case term => exact (slotVal_congr (by simp) (by simp) _).trans (slotVal_advanceTerm hwf)
    case fields =>
      rw [← hlen, setWidth_viewLen_installView]
      rfl

/-- Settles O53: on an exhausted view XFORM's step is the round itself. -/
theorem xformFetchesTerm : Obligations.XformFetchesTerm := by
  intro s hready hview hwf
  have hexec : exec .xform s = .next (xformStep s) := exec_own_of_ready hready rfl rfl
  rw [xformStep_exhausted ((viewExhausted_iff s).mpr hview)] at hexec
  exact ⟨_, hexec, termFetched_fetchRound hwf⟩

/-! ## The views `next()` installs (R167, R169) -/

/-- A digit of a slot is the digit of its value (00_scope.md R11). -/
theorem read_digitAddr_eq_digit {s : State} {slot k : Nat} (hk : k < s.wT) :
    s.digits.read (digitAddr slot k) = digit (s.slotVal slot) k := by
  have hdigits : toDigits s.wT (s.slotVal slot) = s.slotDigits slot :=
    s.slotDigits_length slot ▸ toDigits_valDigits (s.slotDigits slot)
  rw [← getD_toDigits s.wT _ k hk, hdigits]
  exact (Memory.getD_readSlot s.digits slot hk).symm

/-- The most significant digit of a value's usable suffix is not 0 (R164). -/
theorem digit_usable_ne_zero {v m L : Nat} (hlen : siglen (v % 256 ^ m) = L + 1) : digit v L ≠ 0 := by
  intro hzero
  have hdigit : v / 256 ^ L % 256 = 0 := by rw [← toNat_digit, hzero]; rfl
  have hlow : 256 ^ L ≤ v % 256 ^ m := (lt_siglen_iff _ _).mp (hlen ▸ L.lt_succ_self)
  have hhigh : v % 256 ^ m < 256 ^ (L + 1) := hlen ▸ lt_pow_siglen _
  have hm : L + 1 ≤ m := hlen ▸ (siglen_le_iff _ _).mpr (Nat.mod_lt _ (by positivity))
  have hsuffix : v % 256 ^ m = v % 256 ^ L := by
    calc v % 256 ^ m = v % 256 ^ m % 256 ^ (L + 1) := (Nat.mod_eq_of_lt hhigh).symm
      _ = v % 256 ^ (L + 1) := Nat.mod_mod_of_dvd v (pow_dvd_pow 256 hm)
      _ = v % 256 ^ L := by rw [Nat.mod_pow_succ, hdigit, Nat.mul_zero, Nat.add_zero]
  have hless : v % 256 ^ L < 256 ^ L := Nat.mod_lt _ (by positivity)
  omega

theorem viewExhausted_installView {s : State} (husable : s.newestUsable ≠ 0) : s.installView.viewExhausted = false := by
  rw [Bool.eq_false_iff, Ne, viewExhausted_iff, toNat_viewLen_installView]
  exact fun hle => husable (Nat.le_zero.mp hle)

theorem viewByte_installView_ne_zero {s : State} (husable : s.newestUsable ≠ 0) : s.installView.viewByte 0 ≠ 0 := by
  obtain ⟨L, hL⟩ := Nat.exists_eq_succ_of_ne_zero husable
  have hm : s.newestUsable ≤ s.m := s.usableLen_le _
  have hwT : s.wT = s.m + 10 := rfl
  have hfirst : s.installView.viewLen.toNat - 1 - 0 = L := by rw [toNat_viewLen_installView, hL]; rfl
  rw [State.viewByte, hfirst]
  exact (read_digitAddr_eq_digit (s := s) (by omega)).trans_ne (digit_usable_ne_zero hL)

/-- Settles O47. -/
theorem yieldedViewIsUsable : Obligations.YieldedViewIsUsable := by
  intro s _
  refine ⟨fun hyield => ?_, ?_⟩
  · rw [fetchRound_yield hyield, toNat_viewLen_installView]
    exact ⟨Nat.one_le_iff_ne_zero.mpr hyield, s.advanceTerm.usableLen_le _, viewExhausted_installView hyield,
      viewByte_installView_ne_zero hyield⟩
  · rw [toNat_viewLen_startView]
    exact s.usableLen_le _

/-! ## The ring after OPEN (R168) -/

theorem seedTerm_zero : ∀ n, seedTerm 0 n = 0
  | 0 => rfl
  | 1 => (sqfold_eq_zero_iff 0).mpr rfl
  | n + 2 => by rw [seedTerm, seedTerm_zero (n + 1), seedTerm_zero n, sqfold_eq_zero_iff]

theorem usableLen_zero (s : State) : s.usableLen 0 = 0 := by rw [State.usableLen, Nat.zero_mod, siglen_zero]

/-- OPEN that ends in READY had a key (44_xform_engine.md R190). -/
theorem m_ne_zero_of_opened {s : State} {mode : Mode} (hready : (openStep mode s).state = .ready) : s.m ≠ 0 := by
  intro hm
  rw [openStep, if_pos hm] at hready
  cases hready

/-- Settles O48. -/
theorem openedRingLivesUnlessKeyZero : Obligations.OpenedRingLivesUnlessKeyZero := by
  intro s t i hi hidle hexec hready
  obtain ⟨mode, hmode⟩ : ∃ mode : Mode, (i = .openEnc ∧ mode = .encrypt) ∨ (i = .openDec ∧ mode = .decrypt) := by
    rcases hi with rfl | rfl
    · exact ⟨.encrypt, .inl ⟨rfl, rfl⟩⟩
    · exact ⟨.decrypt, .inr ⟨rfl, rfl⟩⟩
  have hstep := exec_open_own hmode hidle
  have hopened : t = openStep mode s := Host.Outcome.next.inj (hexec.symm.trans hstep)
  have hm : s.m ≠ 0 := m_ne_zero_of_opened (hopened ▸ hready)
  obtain ⟨u, hu, hterms, hten, _, hview, _, hfields⟩ := openBuildsChain s i mode hmode hidle hm
  obtain rfl : u = t := Host.Outcome.next.inj (hu.symm.trans hexec)
  have he : u.e = 9 := by rw [hfields]
  have hkey : u.m = s.m := by rw [hfields]; rfl
  constructor
  · intro hpassword
    have hslot : u.slotBack 9 = 0 := by rw [State.slotBack, he]; rfl
    refine ⟨9, by decide, ?_⟩
    rw [hslot, hterms 0 (by decide), seedTerm, State.usableLen, hkey, Nat.mod_eq_of_lt (password_lt s), Ne,
      siglen_eq_zero_iff]
    exact hpassword
  · intro hpassword
    refine ⟨fun slot hslot => ?dead, (viewExhausted_iff u).mpr ?exhausted⟩
    case dead =>
      have hzero : u.slotVal slot = 0 := by
        rcases Nat.of_le_succ (Nat.le_of_lt_succ hslot) with hseeded | rfl
        · rw [hterms slot hseeded, hpassword, seedTerm_zero]
        · exact hten
      rw [hzero, usableLen_zero]
    case exhausted =>
      rw [hview, hpassword, seedTerm_zero, Nat.zero_mod, siglen_zero]
      exact Nat.zero_le _

/-! ## The ring through a round (R165, R168) -/

/-- The usable length of the term `back` places before the newest. -/
def State.usableBack (s : State) (back : Nat) : Nat := s.usableLen (s.slotVal (s.slotBack back))

theorem ringAlive_iff (s : State) : s.RingAlive ↔ ∃ back < 10, s.usableBack back ≠ 0 := Iff.rfl

theorem usableLen_eq_zero_iff (s : State) (v : Nat) : s.usableLen v = 0 ↔ 256 ^ s.m ∣ v := by
  rw [State.usableLen, siglen_eq_zero_iff, Nat.dvd_iff_mod_eq_zero]

theorem usableBack_advanceTerm_zero (s : State) : s.advanceTerm.usableBack 0 = s.advanceTerm.newestUsable := by
  have hslot : s.advanceTerm.slotBack 0 = s.advanceTerm.e.val := by
    have hlt := s.advanceTerm.e.isLt
    rw [State.slotBack]
    omega
  rw [State.usableBack, hslot]
  rfl

/-- A round makes every term one place older. -/
theorem usableBack_advanceTerm_succ {s : State} {back : Nat} (hwf : s.digits.wf = true) (hback : back < 10) :
    s.advanceTerm.usableBack (back + 1) = s.usableBack back := by
  have hlt := s.e.isLt
  have hslot : s.advanceTerm.slotBack (back + 1) = s.slotBack back := by
    rw [State.slotBack, val_e_advanceTerm, State.nextSlot, State.slotBack]
    omega
  have hne : s.slotBack back ≠ s.nextSlot := by
    rw [State.slotBack, State.nextSlot]
    omega
  rw [State.usableBack, hslot, slotVal_advanceTerm_ne hwf hne]
  rfl

/-- The new term has no usable suffix exactly when the terms 10 and 7 back cancel in the `m` low digits. -/
theorem newestUsable_advanceTerm_eq_zero_iff {s : State} (hwf : s.digits.wf = true) :
    s.advanceTerm.newestUsable = 0 ↔
      256 ^ s.m ∣ s.slotVal ((s.e.val + 2) % 11) + s.slotVal ((s.e.val + 5) % 11) := by
  have hwT : 256 ^ s.m ∣ 256 ^ s.wT := pow_dvd_pow 256 (Nat.le_add_right s.m 10)
  rw [newestUsable_advanceTerm hwf, siglen_eq_zero_iff, ← Nat.dvd_iff_mod_eq_zero, State.nextTerm, Nat.dvd_mod_iff hwT]

/-- Where the round is skipped, the terms 10 and 7 back are both usable or both not. -/
theorem usableBack_six_ne_zero {s : State} (hwf : s.digits.wf = true) (hskip : s.advanceTerm.newestUsable = 0)
    (holdest : s.usableBack 9 ≠ 0) : s.usableBack 6 ≠ 0 := by
  have h9 : s.slotBack 9 = (s.e.val + 2) % 11 := rfl
  have h6 : s.slotBack 6 = (s.e.val + 5) % 11 := rfl
  have hsum := (newestUsable_advanceTerm_eq_zero_iff hwf).mp hskip
  rw [State.usableBack, Ne, usableLen_eq_zero_iff, h9] at holdest
  rw [State.usableBack, Ne, usableLen_eq_zero_iff, h6]
  exact fun h => holdest ((Nat.dvd_add_left h).mp hsum)

/-- A round keeps a live ring alive: a term that leaves the ten newest leaves the new term or the term 7 back usable. -/
theorem ringAlive_advanceTerm {s : State} (hwf : s.digits.wf = true) (halive : s.RingAlive) : s.advanceTerm.RingAlive := by
  obtain ⟨back, hback, husable⟩ := (ringAlive_iff s).mp halive
  rw [ringAlive_iff]
  rcases Nat.lt_succ_iff_lt_or_eq.mp hback with hstays | rfl
  · exact ⟨back + 1, Nat.succ_lt_succ hstays, (usableBack_advanceTerm_succ hwf hback).trans_ne husable⟩
  · by_cases hskip : s.advanceTerm.newestUsable = 0
    · have hsix := usableBack_six_ne_zero hwf hskip husable
      exact ⟨7, by decide, (usableBack_advanceTerm_succ hwf (by decide)).trans_ne hsix⟩
    · exact ⟨0, by decide, (usableBack_advanceTerm_zero s).trans_ne hskip⟩

theorem newestUsable_advanceTerm_of_ringDead {s : State} (hwf : s.digits.wf = true) (hdead : s.RingDead) :
    s.advanceTerm.newestUsable = 0 := by
  have hold : ∀ d, 256 ^ s.m ∣ s.slotVal ((s.e.val + d) % 11) := fun d =>
    (usableLen_eq_zero_iff s _).mp (hdead _ (Nat.mod_lt _ (by decide)))
  exact (newestUsable_advanceTerm_eq_zero_iff hwf).mpr ((hold 2).add (hold 5))

/-- A round keeps a dead ring dead: the sum of two unusable terms is unusable. -/
theorem ringDead_advanceTerm {s : State} (hwf : s.digits.wf = true) (hdead : s.RingDead) : s.advanceTerm.RingDead := by
  intro slot hslot
  by_cases hnew : slot = s.nextSlot
  · have hnewest := newestUsable_advanceTerm_of_ringDead hwf hdead
    rwa [State.newestUsable, val_e_advanceTerm, ← hnew] at hnewest
  · rw [slotVal_advanceTerm_ne hwf hnew]
    exact hdead slot hslot

/-! ## A live ring stays alive (R168) -/

/-- The ring stands as it was: the digit space, the width, the newest term's slot. -/
def SameRing (s t : State) : Prop := t.digits = s.digits ∧ t.keyLen = s.keyLen ∧ t.e = s.e

theorem SameRing.refl (s : State) : SameRing s s := ⟨rfl, rfl, rfl⟩

theorem SameRing.usableBack {s t : State} (h : SameRing s t) (back : Nat) : t.usableBack back = s.usableBack back := by
  obtain ⟨hdigits, hkey, he⟩ := h
  have hslot : t.slotBack back = s.slotBack back := by rw [State.slotBack, he, State.slotBack]
  have hm : t.m = s.m := congrArg BitVec.toNat hkey
  rw [State.usableBack, hslot, slotVal_congr hdigits hkey, State.usableLen, hm]
  rfl

theorem SameRing.ringAlive {s t : State} (h : SameRing s t) (halive : s.RingAlive) : t.RingAlive := by
  obtain ⟨back, hback, husable⟩ := (ringAlive_iff s).mp halive
  exact (ringAlive_iff t).mpr ⟨back, hback, (h.usableBack back).trans_ne husable⟩

theorem SameRing.completeWithResult {s t : State} (h : SameRing s t) (v : Word) :
    SameRing s ({ t with result := v } : State).complete := h

/-- All that a command can do to the ring in READY: nothing, or one round. -/
def RingKeptOrAdvanced (s t : State) : Prop := SameRing s t ∨ SameRing s.advanceTerm t

theorem RingKeptOrAdvanced.ringAlive {s t : State} (h : RingKeptOrAdvanced s t) (hwf : s.digits.wf = true)
    (halive : s.RingAlive) : t.RingAlive := by
  rcases h with hkept | hadvanced
  · exact hkept.ringAlive halive
  · exact hadvanced.ringAlive (ringAlive_advanceTerm hwf halive)

theorem sameRing_fetchRound (s : State) : SameRing s.advanceTerm s.fetchRound := by
  rcases fetchRound_cases s with ⟨_, h⟩ | ⟨_, h⟩ <;> rw [h] <;> exact ⟨rfl, rfl, rfl⟩

theorem sameRing_byteStep {s t : State} {b out : Byte} (h : s.byteStep b = .ok (t, out)) : SameRing s t := by
  rcases byteStep_cases s b with ⟨_, h'⟩ | ⟨_, h'⟩ <;> rw [h'] at h <;> cases h
  exact ⟨rfl, rfl, rfl⟩

theorem sameRing_flushOrFault {onOk : State → State} (hok : ∀ t, SameRing t (onOk t)) (s : State) :
    SameRing s (flushOrFault onOk s) := by
  unfold flushOrFault
  rcases snkSync_cases s with ⟨_, h⟩ | ⟨a, rest, _, h⟩ <;> rw [h]
  · exact .refl s
  · cases a with
    | ok _ => exact hok { s with snkFlush := rest, trace := _ }
    | err e => exact ⟨rfl, rfl, rfl⟩

theorem sameRing_closeStep (s : State) : SameRing s (closeStep s) := by
  unfold closeStep
  refine sameRing_flushOrFault (fun t => ?_) s
  exact ⟨rfl, rfl, rfl⟩

theorem ringKeptOrAdvanced_xformStep (s : State) : RingKeptOrAdvanced s (xformStep s) := by
  unfold xformStep
  split
  · exact .inr (sameRing_fetchRound s)
  · split
    · exact .inl ⟨rfl, rfl, rfl⟩
    · next t out hbyte =>
      have hcommitted : SameRing s t := sameRing_byteStep hbyte
      exact .inl hcommitted

theorem ringKeptOrAdvanced_chainNextStep (s : State) : RingKeptOrAdvanced s (chainNextStep s) := by
  have hround := sameRing_fetchRound s
  unfold chainNextStep
  split
  · exact .inr hround
  · exact .inr (hround.completeWithResult _)

theorem ringKeptOrAdvanced_runByteStep (b : Byte) (s : State) : RingKeptOrAdvanced s (runByteStep b s) := by
  unfold runByteStep
  split
  · exact .inr (sameRing_fetchRound s)
  · split
    · exact .inl ⟨rfl, rfl, rfl⟩
    · next t out hbyte =>
      have hcommitted : SameRing s t := sameRing_byteStep hbyte
      exact .inl hcommitted

/-- RUN's port transactions leave the ring. -/
theorem ringKeptOrAdvanced_runStep (s : State) : RingKeptOrAdvanced s (runStep s) := by
  unfold runStep
  cases s.phase with
  | top =>
    dsimp only [runAskMore]
    rcases srcHasMore_cases s with ⟨_, h⟩ | ⟨a, rest, _, h⟩ <;> rw [h]
    · exact .inl (.refl s)
    · rcases a with (_ | _) | e <;> exact .inl ⟨rfl, rfl, rfl⟩
  | needByte =>
    dsimp only [runTakeByte]
    rcases srcTake_cases s with ⟨_, h⟩ | ⟨a, rest, _, h⟩ <;> rw [h]
    · exact .inl (.refl s)
    · rcases a with b | e <;> exact .inl ⟨rfl, rfl, rfl⟩
  | haveByte b => exact ringKeptOrAdvanced_runByteStep b s
  | putByte out =>
    dsimp only [runPutByte]
    rcases snkPut_cases s out with ⟨_, h⟩ | ⟨a, rest, _, h⟩ <;> rw [h]
    · exact .inl (.refl s)
    · rcases a with _ | e <;> exact .inl ⟨rfl, rfl, rfl⟩
  | finalFlush => exact .inl (sameRing_flushOrFault (onOk := State.complete) (fun _ => ⟨rfl, rfl, rfl⟩) s)
  | faultFlush f =>
    dsimp only [runFaultFlush]
    rcases snkSync_cases s with ⟨_, h⟩ | ⟨a, rest, _, h⟩ <;> rw [h]
    · exact .inl (.refl s)
    · exact .inl ⟨rfl, rfl, rfl⟩

/-- The commands that store digits or change the key otherwise are not legal in READY (30_encoding.md R76). -/
theorem ringKeptOrAdvanced_ownStep {i : Instr} (hlegal : legalIn i .ready = true) (s : State) :
    RingKeptOrAdvanced s (ownStep i s) := by
  cases i with
  | nop | drd => exact .inl ⟨rfl, rfl, rfl⟩
  | close => exact .inl (sameRing_closeStep s)
  | xform => exact ringKeptOrAdvanced_xformStep s
  | run => exact ringKeptOrAdvanced_runStep s
  | chainNext => exact ringKeptOrAdvanced_chainNextStep s
  | keyClear | keyPush | openEnc | openDec | bigAdd | sensLoad | sensAdd | sensSqfold | sensExtract | dwr => cases hlegal

theorem ringKeptOrAdvanced_exec {i : Instr} {s t : State} (hready : s.state = .ready) (h : exec i s = .next t) :
    RingKeptOrAdvanced s t := by
  rw [exec_eq_checked] at h
  rcases checked_cases h with ⟨_, rfl⟩ | ⟨_, _, rfl⟩ | ⟨_, _, _, rfl⟩ | ⟨_, hlegal, _, rfl⟩
  · exact .inl (.refl t)
  · exact .inl ⟨rfl, rfl, rfl⟩
  · exact .inl ⟨rfl, rfl, rfl⟩
  · exact ringKeptOrAdvanced_ownStep (hready ▸ hlegal) s

theorem ringKeptOrAdvanced_coreStep {s t : State} (hready : s.state = .ready) (h : coreStep s = .next t) :
    RingKeptOrAdvanced s t := by
  rcases coreStep_cases s with ⟨_, h'⟩ | ⟨f, i, _, _, h'⟩ | ⟨f, e, _, _, h'⟩ <;> rw [h'] at h
  · cases h
    exact .inl (.refl s)
  · exact ringKeptOrAdvanced_exec hready h
  · rw [if_neg (by simp [hready])] at h
    cases h
    exact .inl ⟨rfl, rfl, rfl⟩

theorem sameRing_hostRead (s : State) (off : Nat) : SameRing s (s.hostRead off) := by
  unfold State.hostRead
  split <;> exact ⟨rfl, rfl, rfl⟩

/-- Only a reset's write touches the ring, and it leaves READY. -/
theorem sameRing_hostWrite {s : State} {off : Nat} {v : Word} (hready : (s.hostWrite off v).state = .ready) :
    SameRing s (s.hostWrite off v) := by
  rcases hostWrite_cases s off v with ⟨_, h⟩ | ⟨_, h⟩ | ⟨_, h⟩ | ⟨_, h⟩ | ⟨_, h⟩ <;> rw [h] at hready ⊢
  · rcases writeCtrl_cases s v with ⟨_, h⟩ | ⟨_, h⟩ <;> rw [h] at hready ⊢
    · cases hready
    · exact ⟨rfl, rfl, rfl⟩
  · exact ⟨rfl, rfl, rfl⟩
  · rcases deliverCommand_cases s v with ⟨_, h⟩ | ⟨_, _, h⟩ | ⟨_, _, h⟩ <;> rw [h] <;> exact ⟨rfl, rfl, rfl⟩
  · exact ⟨rfl, rfl, rfl⟩
  · exact .refl s

/-- Settles O49: of the moves that leave the engine open only the core's touches the ring, by one round. -/
theorem liveRingStaysAlive : Obligations.LiveRingStaysAlive := by
  intro s t hready hwf halive hstep hopen
  cases step_move hstep with
  | core evs _ hcore =>
    have hmoved := ringKeptOrAdvanced_coreStep (s := { s with events := evs }) hready hcore
    exact hmoved.ringAlive hwf halive
  | hostRead width addr off rest _ _ ht =>
    subst ht
    exact (sameRing_hostRead { s with events := rest } off).ringAlive halive
  | hostWrite width addr off v rest _ _ ht =>
    subst ht
    exact (sameRing_hostWrite hopen).ringAlive halive
  | pollEnds rest _ _ ht => exact ht ▸ halive
  | hardReset rest _ ht =>
    subst ht
    cases hopen

/-! ## A live ring yields within ten rounds (R168 (a)) -/

/-- The `k` newest terms have no usable suffix: what `k` skipped rounds leave. -/
def State.NewestUnusable (s : State) (k : Nat) : Prop := ∀ back < k, s.usableBack back = 0

theorem newestUnusable_advanceTerm {s : State} {k : Nat} (hwf : s.digits.wf = true) (hk : k ≤ 10)
    (hnewest : s.NewestUnusable k) (hskip : s.advanceTerm.newestUsable = 0) : s.advanceTerm.NewestUnusable (k + 1) := by
  intro back hback
  cases back with
  | zero => rw [usableBack_advanceTerm_zero, hskip]
  | succ back => rw [usableBack_advanceTerm_succ hwf (by omega), hnewest back (by omega)]

theorem not_newestUnusable_ten {s : State} (halive : s.RingAlive) : ¬ s.NewestUnusable 10 := by
  obtain ⟨back, hback, husable⟩ := (ringAlive_iff s).mp halive
  exact fun hnewest => husable (hnewest back hback)

/-- `s` after `r` rounds, no view installed. -/
def State.afterRounds (s : State) (r : Nat) : State := State.advanceTerm^[r] s

theorem afterRounds_succ (s : State) (r : Nat) : s.afterRounds (r + 1) = (s.afterRounds r).advanceTerm :=
  Function.iterate_succ_apply' _ _ _

theorem viewExhausted_advanceTerm (s : State) : s.advanceTerm.viewExhausted = s.viewExhausted := by
  rw [State.viewExhausted, State.advanceTerm_viewLen, State.advanceTerm_viewCur, State.viewExhausted]

theorem viewExhausted_afterRounds (s : State) (r : Nat) : (s.afterRounds r).viewExhausted = s.viewExhausted := by
  induction r with
  | zero => rfl
  | succ r ih => rw [afterRounds_succ, viewExhausted_advanceTerm, ih]

/-- The first `r` rounds from `s` yield no term. -/
def State.Skips (s : State) (r : Nat) : Prop := ∀ q < r, (s.afterRounds q).advanceTerm.newestUsable = 0

theorem wf_afterRounds {s : State} (hwf : s.digits.wf = true) (r : Nat) : (s.afterRounds r).digits.wf = true := by
  induction r with
  | zero => exact hwf
  | succ r ih => exact afterRounds_succ s r ▸ wf_advanceTerm ih

theorem ringAlive_afterRounds {s : State} (hwf : s.digits.wf = true) (halive : s.RingAlive) (r : Nat) :
    (s.afterRounds r).RingAlive := by
  induction r with
  | zero => exact halive
  | succ r ih => exact afterRounds_succ s r ▸ ringAlive_advanceTerm (wf_afterRounds hwf r) ih

theorem newestUnusable_afterRounds {s : State} {r : Nat} (hwf : s.digits.wf = true) (hr : r ≤ 10) (hskips : s.Skips r) :
    (s.afterRounds r).NewestUnusable r := by
  induction r with
  | zero => exact fun _ h => absurd h (Nat.not_lt_zero _)
  | succ r ih =>
    have hbefore := ih (by omega) fun q hq => hskips q (by omega)
    rw [afterRounds_succ]
    exact newestUnusable_advanceTerm (wf_afterRounds hwf r) (by omega) hbefore (hskips r r.lt_succ_self)

/-- Ten skipped rounds would leave a live ring of ten unusable terms: one of the first ten rounds yields. -/
theorem exists_yield {s : State} (hwf : s.digits.wf = true) (halive : s.RingAlive) :
    ∃ r < 10, s.Skips r ∧ (s.afterRounds r).advanceTerm.newestUsable ≠ 0 := by
  have hten : ¬ s.Skips 10 := fun hskips =>
    not_newestUnusable_ten (ringAlive_afterRounds hwf halive 10) (newestUnusable_afterRounds hwf le_rfl hskips)
  have hyields : ∃ r, (s.afterRounds r).advanceTerm.newestUsable ≠ 0 := by
    by_contra hnone
    push Not at hnone
    exact hten fun q _ => hnone q
  have hfirst : s.Skips (Nat.find hyields) := fun q hq => not_not.mp (Nat.find_min hyields hq)
  refine ⟨Nat.find hyields, ?_, hfirst, Nat.find_spec hyields⟩
  by_contra hlate
  exact hten fun q hq => hfirst q (by omega)

/-- A dead ring is skipped for ever (R168 (b)). -/
theorem skips_of_ringDead {s : State} (hwf : s.digits.wf = true) (hdead : s.RingDead) (r : Nat) : s.Skips r := by
  have hafter : ∀ q, (s.afterRounds q).RingDead := by
    intro q
    induction q with
    | zero => exact hdead
    | succ q ih => exact afterRounds_succ s q ▸ ringDead_advanceTerm (wf_afterRounds hwf q) ih
  exact fun q _ => newestUsable_advanceTerm_of_ringDead (wf_afterRounds hwf q) (hafter q)

/-! ## Core steps of a command that fetches a term (R168, 70_reset_and_hazards.md R275) -/

theorem busy_of_inFlight {s : State} {f : InFlight} (hf : s.inFlight = some f) : s.busy = true := by
  rw [State.busy, hf]
  rfl

theorem coreSteps_busy {s t : State} (k : Nat) (hbusy : s.busy = true) (hstep : coreStep s = .next t) :
    coreSteps (k + 1) s = coreSteps k t := by
  rw [coreSteps, if_pos hbusy, hstep]

theorem coreSteps_idle {s : State} (k : Nat) (hidle : s.busy = false) : coreSteps k s = s := by
  cases k with
  | zero => rfl
  | succ k => rw [coreSteps, hidle, if_neg Bool.false_ne_true]

/-- The next core step of the command in flight is a round of `next()`: a CHAIN_NEXT, or an XFORM or the byte step of a RUN
on an exhausted view. -/
structure State.AwaitsTerm (s : State) (f : InFlight) : Prop where
  ready : s.state = .ready
  flight : s.inFlight = some f
  fetches :
    decode f.word = .ok .chainNext ∨ (decode f.word = .ok .xform ∧ s.viewExhausted = true) ∨
      (decode f.word = .ok .run ∧ s.viewExhausted = true ∧ ∃ b, f.phase = .haveByte b)

/-- A core step of a command that runs in READY is the command's own step. -/
theorem coreStep_own_of_ready {s : State} {f : InFlight} {i : Instr} (hready : s.state = .ready) (hf : s.inFlight = some f)
    (hdec : decode f.word = .ok i) (hlegal : legalIn i .ready = true) (hrange : operandsInRange s.wT i = true) :
    coreStep s = .next (ownStep i s) := (coreStep_of_decode hf hdec).trans (exec_own_of_ready hready hlegal hrange)

theorem runStep_haveByte_exhausted {s : State} {f : InFlight} {b : Byte} (hf : s.inFlight = some f)
    (hphase : f.phase = .haveByte b) (hview : s.viewExhausted = true) : runStep s = s.fetchRound := by
  have hp : s.phase = .haveByte b := by rw [State.phase, hf]; exact hphase
  rw [runStep, hp]
  exact if_pos hview

/-- A round that yields no term leaves the command where it was, one term further. -/
theorem State.AwaitsTerm.coreStep_skip {s : State} {f : InFlight} (h : s.AwaitsTerm f)
    (hskip : s.advanceTerm.newestUsable = 0) : coreStep s = .next s.advanceTerm := by
  obtain ⟨hready, hf, hchain | ⟨hxform, hview⟩ | ⟨hrun, hview, b, hphase⟩⟩ := h
  · rw [coreStep_own_of_ready hready hf hchain rfl rfl, ownStep, chainNextStep_skip hskip]
  · rw [coreStep_own_of_ready hready hf hxform rfl rfl, ownStep, xformStep_exhausted hview, fetchRound_skip hskip]
  · rw [coreStep_own_of_ready hready hf hrun rfl rfl, ownStep, runStep_haveByte_exhausted hf hphase hview,
      fetchRound_skip hskip]

theorem State.AwaitsTerm.advanceTerm {s : State} {f : InFlight} (h : s.AwaitsTerm f) : s.advanceTerm.AwaitsTerm f :=
  ⟨by simp [h.ready], by simp [h.flight], (viewExhausted_advanceTerm s).symm ▸ h.fetches⟩

theorem State.AwaitsTerm.afterRounds {s : State} {f : InFlight} (h : s.AwaitsTerm f) (r : Nat) :
    (s.afterRounds r).AwaitsTerm f := by
  induction r with
  | zero => exact h
  | succ r ih => exact afterRounds_succ s r ▸ ih.advanceTerm

/-- Skipped rounds are core steps one for one. -/
theorem State.AwaitsTerm.coreSteps_skips {s : State} {f : InFlight} (h : s.AwaitsTerm f) {r : Nat} (hskips : s.Skips r)
    (k : Nat) : coreSteps (r + k) s = coreSteps k (s.afterRounds r) := by
  induction r generalizing k with
  | zero => rw [Nat.zero_add]; rfl
  | succ r ih =>
    have hlast := (h.afterRounds r).coreStep_skip (hskips r r.lt_succ_self)
    rw [Nat.add_right_comm, Nat.add_assoc, ih (fun q hq => hskips q (by omega)),
      coreSteps_busy k (busy_of_inFlight (h.afterRounds r).flight) hlast, afterRounds_succ]

/-- Settles O51: every core step is a skipped round. -/
theorem deadRingHangs : Obligations.DeadRingHangs := by
  intro s f hready hwf hdead hf hfetches k
  have hawaits : s.AwaitsTerm f := ⟨hready, hf, hfetches⟩
  have hsteps : coreSteps k s = s.afterRounds k := hawaits.coreSteps_skips (skips_of_ringDead hwf hdead k) 0
  rw [hsteps]
  exact busy_of_inFlight (hawaits.afterRounds k).flight

/-- The round that yields completes a CHAIN_NEXT. -/
theorem coreStep_chainNext_yield {s : State} {f : InFlight} (hready : s.state = .ready) (hf : s.inFlight = some f)
    (hdec : decode f.word = .ok .chainNext) (hyield : s.advanceTerm.newestUsable ≠ 0) :
    ∃ t, coreStep s = .next t ∧ t.busy = false ∧ t.done = true ∧ t.state = .ready := by
  have hstep := coreStep_own_of_ready hready hf hdec rfl rfl
  rw [ownStep, chainNextStep_yield hyield] at hstep
  exact ⟨_, hstep, rfl, rfl, by simp [hready]⟩

/-- The two ways an XFORM ends (44_xform_engine.md R194, R196). -/
def State.XformEnded (t : State) : Prop :=
  t.busy = false ∧ ((t.done = true ∧ t.state = .ready) ∨ t.err = .poolOverflow)

/-- On a view that is not exhausted XFORM ends with its byte step. -/
theorem coreStep_xform_unread {s : State} {f : InFlight} (hready : s.state = .ready) (hf : s.inFlight = some f)
    (hdec : decode f.word = .ok .xform) (hview : s.viewExhausted = false) :
    ∃ t, coreStep s = .next t ∧ t.XformEnded := by
  have hstep := coreStep_own_of_ready hready hf hdec rfl rfl
  have hbyte : ownStep .xform s = xformStep s := rfl
  rw [hbyte, xformStep, if_neg (by simp [hview])] at hstep
  rcases byteStep_cases s s.latchedDin with ⟨_, h⟩ | ⟨_, h⟩ <;> rw [h] at hstep
  · exact ⟨_, hstep, rfl, .inr rfl⟩
  · exact ⟨_, hstep, rfl, .inl ⟨rfl, hready⟩⟩

/-- The round that yields leaves XFORM its byte step, on a fresh view. -/
theorem coreSteps_xform_yield {s : State} {f : InFlight} (h : s.AwaitsTerm f) (hdec : decode f.word = .ok .xform)
    (hview : s.viewExhausted = true) (hyield : s.advanceTerm.newestUsable ≠ 0) (k : Nat) :
    (coreSteps (k + 2) s).XformEnded := by
  have hstep := coreStep_own_of_ready h.ready h.flight hdec rfl rfl
  rw [ownStep, xformStep_exhausted hview, fetchRound_yield hyield] at hstep
  have hready : s.advanceTerm.installView.state = .ready := by simp [h.ready]
  have hflight : s.advanceTerm.installView.inFlight = some f := by simp [h.flight]
  obtain ⟨t, hlast, hended⟩ := coreStep_xform_unread hready hflight hdec (viewExhausted_installView hyield)
  rw [coreSteps_busy (k + 1) (busy_of_inFlight h.flight) hstep, coreSteps_busy k (busy_of_inFlight hflight) hlast,
    coreSteps_idle k hended.1]
  exact hended

/-- Settles O50: at most nine skipped rounds, the round that yields, and for XFORM its byte step. -/
theorem nextEndsWithinTenRounds : Obligations.NextEndsWithinTenRounds := by
  intro s f hready hwf halive hf
  obtain ⟨r, hr, hskips, hyield⟩ := exists_yield hwf halive
  constructor
  · intro hdec
    have hawaits : s.AwaitsTerm f := ⟨hready, hf, .inl hdec⟩
    have hafter := hawaits.afterRounds r
    obtain ⟨t, hlast, hidle, hended⟩ := coreStep_chainNext_yield hafter.ready hafter.flight hdec hyield
    have hsteps : coreSteps 10 s = t := by
      rw [show 10 = r + (9 - r + 1) by omega, hawaits.coreSteps_skips hskips,
        coreSteps_busy _ (busy_of_inFlight hafter.flight) hlast, coreSteps_idle _ hidle]
    rw [hsteps]
    exact ⟨hidle, hended⟩
  · intro hdec
    change (coreSteps 11 s).XformEnded
    cases hview : s.viewExhausted with
    | false =>
      obtain ⟨t, hlast, hended⟩ := coreStep_xform_unread hready hf hdec hview
      rw [coreSteps_busy 10 (busy_of_inFlight hf) hlast, coreSteps_idle 10 hended.1]
      exact hended
    | true =>
      have hawaits : s.AwaitsTerm f := ⟨hready, hf, .inr (.inl ⟨hdec, hview⟩)⟩
      have hview' : (s.afterRounds r).viewExhausted = true := (viewExhausted_afterRounds s r).trans hview
      rw [show 11 = r + (9 - r + 2) by omega, hawaits.coreSteps_skips hskips]
      exact coreSteps_xform_yield (hawaits.afterRounds r) hdec hview' hyield (9 - r)

end Sys2Proof.Machine
end

section
/-! PROOFS. Unit 5, the per-byte transformation engine (44_xform_engine.md R190 to R200): the byte step (R193, R196, R199) and
the commands made of it, XFORM (R194), RUN (R195, 60_exceptions.md R255) and CLOSE (R197).

The byte step's arithmetic is said once for both directions (`encryptByte_eq`, `decryptByte_eq`), and the step itself by its
two outcomes, `byteStep_commit` and `byteStep_overflow`. A port's answer and the phase it leads to are said once per
transaction, so that each of RUN's steps is one equation of states for every answer. -/

namespace Sys2Proof.Machine

/-! ## Step 6 in integers (R193, R199) -/

theorem encryptByte_eq {xin k : Nat} (hx : xin ≤ 255) (hk : k ≤ 255) :
    encryptByte xin k = ⟨(xin + k) % 256, if 256 ≤ xin + k then 1 else 0, xin⟩ := by
  have hquot : (xin + k) / 256 = if 256 ≤ xin + k then 1 else 0 := by
    split <;> omega
  rw [encryptByte, hquot]

/-- Decryption without signed integers: an input below `k` wraps upward by 256 (R194). -/
theorem decryptByte_eq {xin k : Nat} (hx : xin ≤ 255) (hk : k ≤ 255) :
    decryptByte xin k = ⟨(xin + 256 - k) % 256, if xin < k then 1 else 0, (xin + 256 - k) % 256⟩ := by
  by_cases hborrow : xin < k
  · have hquot : (255 - ((xin : Int) - k)) / 256 = 1 := by omega
    have hplain : (256 * 1 + ((xin : Int) - k)).toNat = (xin + 256 - k) % 256 := by omega
    simp only [decryptByte, hquot, hplain, if_pos hborrow]
    rfl
  · have hquot : (255 - ((xin : Int) - k)) / 256 = 0 := by omega
    have hplain : (256 * 0 + ((xin : Int) - k)).toNat = (xin + 256 - k) % 256 := by omega
    simp only [decryptByte, hquot, hplain, if_neg hborrow]
    rfl

/-- R198's argument for one byte: decryption recovers the plaintext byte and adds the same `q` to the pool. -/
theorem decryptByte_encryptByte {xin k : Nat} (hx : xin ≤ 255) (hk : k ≤ 255) :
    decryptByte (encryptByte xin k).out k = ⟨xin, (encryptByte xin k).quot, xin⟩ := by
  have hout : (encryptByte xin k).out ≤ 255 := Nat.le_of_lt_succ (Nat.mod_lt _ (by decide))
  rw [decryptByte_eq hout hk, encryptByte_eq hx hk, Transformed.mk.injEq]
  refine ⟨?_, ?_, ?_⟩
  · dsimp only
    omega
  · dsimp only
    split <;> split <;> omega
  · dsimp only
    omega

theorem quot_transformByte_le_one (mode : Mode) {xin k : Nat} (hx : xin ≤ 255) (hk : k ≤ 255) :
    (transformByte mode xin k).quot ≤ 1 := by
  cases mode with
  | encrypt =>
    rw [transformByte, encryptByte_eq hx hk]
    dsimp only
    split <;> omega
  | decrypt =>
    rw [transformByte, decryptByte_eq hx hk]
    dsimp only
    split <;> omega

/-! ## The byte step (R193, R196) -/

theorem toNat_byte_le (b : Byte) : b.toNat ≤ 255 := Nat.le_of_lt_succ b.isLt

theorem stepKey_le (s : State) : s.stepKey ≤ 255 := by
  have hu : s.stepU ≤ 255 := by
    rw [State.stepU]
    split
    · omega
    · exact toNat_byte_le _
  have hv := toNat_byte_le (s.viewByte s.stepIndex)
  rw [State.stepKey]
  omega

/-- What step 6 makes of an input byte at this state. -/
abbrev State.transformed (s : State) (xin : Byte) : Transformed := transformByte s.mode xin.toNat s.stepKey

/-- The pool the byte step commits, or overflows. -/
abbrev State.nextPool (s : State) (xin : Byte) : Nat := s.drainedPool + (s.transformed xin).quot

/-- The byte the byte step returns. -/
abbrev State.outByte (s : State) (xin : Byte) : Byte := BitVec.ofNat 8 (s.transformed xin).out

/-- `s` with the commit of the byte step. -/
def State.commit (s : State) (xin : Byte) : State :=
  { s with
    j := BitVec.ofNat 16 s.stepIndex
    viewCur := s.viewCur + 1
    pool := BitVec.ofNat 64 (s.nextPool xin)
    prev := BitVec.ofNat 8 (s.transformed xin).plain }

/-- `s` with one byte transformed: the commit, and the output byte in DOUT. -/
abbrev State.emit (s : State) (xin : Byte) : State := { s.commit xin with dout := s.outByte xin }

theorem byteStep_overflow {s : State} {xin : Byte} (hpool : 2 ^ 64 ≤ s.nextPool xin) :
    s.byteStep xin = .error ⟨.poolOverflow, 0, 0⟩ := if_pos (Nat.lt_of_succ_le hpool)

theorem byteStep_commit {s : State} {xin : Byte} (hpool : s.nextPool xin < 2 ^ 64) :
    s.byteStep xin = .ok (s.commit xin, s.outByte xin) := if_neg (Nat.le_of_lt_succ hpool).not_gt

theorem byteStep_ok_iff {s t : State} {xin out : Byte} :
    s.byteStep xin = .ok (t, out) ↔ s.nextPool xin < 2 ^ 64 ∧ t = s.commit xin ∧ out = s.outByte xin := by
  constructor
  · intro h
    rcases Nat.lt_or_ge (s.nextPool xin) (2 ^ 64) with hpool | hpool
    · rw [byteStep_commit hpool] at h
      cases h
      exact ⟨hpool, rfl, rfl⟩
    · rw [byteStep_overflow hpool] at h
      cases h
  · rintro ⟨hpool, rfl, rfl⟩
    exact byteStep_commit hpool

theorem viewExhausted_eq_false_iff (s : State) : s.viewExhausted = false ↔ s.viewCur.toNat < s.viewLen.toNat := by
  rw [Bool.eq_false_iff, Ne, viewExhausted_iff, Nat.not_le]

theorem stepIndex_lt {s : State} (hview : s.viewExhausted = false) : s.stepIndex < s.viewLen.toNat :=
  Nat.mod_lt _ (Nat.zero_lt_of_lt ((viewExhausted_eq_false_iff s).mp hview))

/-- On an unread view neither J nor the cursor wraps its register. -/
theorem commit_within_view {s : State} (xin : Byte) (hview : s.viewExhausted = false) :
    (s.commit xin).j.toNat < s.viewLen.toNat ∧ (s.commit xin).viewCur.toNat = s.viewCur.toNat + 1 := by
  have hlen : s.viewLen.toNat < 2 ^ 16 := s.viewLen.isLt
  have hcur := (viewExhausted_eq_false_iff s).mp hview
  have hindex := stepIndex_lt hview
  constructor
  · calc (s.commit xin).j.toNat = s.stepIndex := (BitVec.toNat_ofNat ..).trans (Nat.mod_eq_of_lt (hindex.trans hlen))
      _ < s.viewLen.toNat := hindex
  · exact toNat_add_one_of_lt (by omega)

/-- Settles O32. -/
theorem byteTransformLaws : Obligations.ByteTransformLaws := by
  refine ⟨stepKey_le, fun xin k hx hk => ?laws, fun s t xin out hview h => ?registers⟩
  case laws =>
    rw [encryptByte_eq hx hk, decryptByte_eq hx hk]
    refine ⟨rfl, rfl, rfl, rfl, ?_, ?_, rfl⟩
    · dsimp only
      split <;> omega
    · dsimp only
      omega
  case registers =>
    obtain ⟨_, rfl, _⟩ := byteStep_ok_iff.mp h
    obtain ⟨hj, hcur⟩ := commit_within_view xin hview
    exact ⟨hj, rfl, hcur⟩

/-! ## XFORM (R194) -/

theorem xformStep_commit {s : State} (hview : s.viewExhausted = false) (hpool : s.nextPool s.latchedDin < 2 ^ 64) :
    xformStep s = (s.emit s.latchedDin).complete := by
  rw [xformStep, if_neg (by simp [hview]), byteStep_commit hpool]

theorem xformStep_overflow {s : State} (hview : s.viewExhausted = false) (hpool : 2 ^ 64 ≤ s.nextPool s.latchedDin) :
    xformStep s = s.raise ⟨.poolOverflow, 0, 0⟩ := by
  rw [xformStep, if_neg (by simp [hview]), byteStep_overflow hpool]

/-- Settles O52: the registers of R193 are the byte step's, mode by mode. -/
theorem xformTransformsByte : Obligations.XformTransformsByte := by
  intro s hready hcur view j consumed u pool k x q out plain
  have hview := (viewExhausted_eq_false_iff s).mpr hcur
  have hexec : exec .xform s = .next (xformStep s) := exec_own_of_ready hready rfl rfl
  have hstep : s.transformed s.latchedDin = ⟨out, q, plain⟩ := by
    cases hmode : s.mode with
    | encrypt =>
      simp only [State.transformed, q, out, plain, hmode]
      rfl
    | decrypt =>
      simp only [State.transformed, q, out, plain, hmode]
      exact decryptByte_eq (toNat_byte_le _) (stepKey_le s)
  have hpool : s.nextPool s.latchedDin = pool + q := congrArg (fun r => pool + r.quot) hstep
  constructor
  · intro hfits
    rw [xformStep_commit hview (hpool.trans_lt hfits)] at hexec
    refine ⟨_, hexec, ?_⟩
    rw [State.emit, State.commit, State.outByte, hpool, hstep]
    rfl
  · intro hover
    rw [xformStep_overflow hview (hover.trans_eq hpool.symm)] at hexec
    exact ⟨_, hexec, raise_faultedLike s _⟩

/-! ## OPEN without a key (R190) -/

/-- Settles O44. -/
theorem openWithoutKeyRaisesInvalidKey : Obligations.OpenWithoutKeyRaisesInvalidKey := by
  intro s i hi hidle hm
  have hraise : ∀ mode, openStep mode s = s.raise ⟨.invalidKey, 0, 0⟩ := fun mode => if_pos hm
  have hexec : exec i s = .next (s.raise ⟨.invalidKey, 0, 0⟩) := by
    rcases hi with rfl | rfl
    · exact (exec_open_own (.inl ⟨rfl, rfl⟩) hidle).trans (congrArg _ (hraise .encrypt))
    · exact (exec_open_own (.inr ⟨rfl, rfl⟩) hidle).trans (congrArg _ (hraise .decrypt))
  exact ⟨_, hexec, raise_faultedLike s _⟩

/-! ## The flush that ends a RUN or a CLOSE (R195, R197) -/

/-- `s` after an answered `SNK.flush()` (45_host_and_diag.md R229). -/
abbrev State.flushed (s : State) (a : Answer Unit) (rest : List (Answer Unit)) : State :=
  { s with snkFlush := rest, trace := .flush a :: s.trace }

theorem snkSync_answered {s : State} {a : Answer Unit} {rest : List (Answer Unit)} (h : s.snkFlush = a :: rest) :
    s.snkSync = some (a, s.flushed a rest) := by
  rw [State.snkSync, h]

theorem snkSync_waits {s : State} (h : s.snkFlush = []) : s.snkSync = none := by
  rw [State.snkSync, h]

theorem flushOrFault_ok {s : State} {rest : List (Answer Unit)} (onOk : State → State) (h : s.snkFlush = .ok () :: rest) :
    flushOrFault onOk s = onOk (s.flushed (.ok ()) rest) := by
  rw [flushOrFault, snkSync_answered h]

theorem flushOrFault_err {s : State} {e : Word} {rest : List (Answer Unit)} (onOk : State → State)
    (h : s.snkFlush = .err e :: rest) : flushOrFault onOk s = (s.flushed (.err e) rest).raise ⟨.ioSink, e, 3⟩ := by
  rw [flushOrFault, snkSync_answered h]
  rfl

theorem flushOrFault_waits {s : State} (onOk : State → State) (h : s.snkFlush = []) : flushOrFault onOk s = s := by
  rw [flushOrFault, snkSync_waits h]

/-- Settles O54. -/
theorem closeFlushesSink : Obligations.CloseFlushesSink := by
  intro s hready
  have hexec : exec .close s = .next (closeStep s) := exec_own_of_ready hready rfl rfl
  rw [closeStep] at hexec
  refine ⟨fun rest h => ?ok, fun e rest h => ?err, fun h => ?waits⟩
  case ok =>
    rw [flushOrFault_ok _ h] at hexec
    exact ⟨_, hexec, rfl⟩
  case err =>
    rw [flushOrFault_err _ h] at hexec
    exact ⟨_, hexec, rfl⟩
  case waits => rwa [flushOrFault_waits _ h] at hexec

/-! ## RUN, phase by phase (R195) -/

/-- A RUN in flight, this far through its loop (10_state.md R33). -/
structure State.RunAt (s : State) (f : InFlight) (p : Phase) : Prop where
  ready : s.state = .ready
  flight : s.inFlight = some f
  phase : f.phase = p

/-- `s` with its command in flight, `f`, moved on to phase `p`. -/
abbrev State.movedTo (s : State) (f : InFlight) (p : Phase) : State := { s with inFlight := some { f with phase := p } }

theorem setPhase_of_inFlight {s : State} {f : InFlight} (hf : s.inFlight = some f) (p : Phase) :
    s.setPhase p = s.movedTo f p := by
  rw [State.setPhase, hf]
  rfl

theorem runAt_movedTo {s : State} (f : InFlight) (p : Phase) (hready : s.state = .ready) :
    (s.movedTo f p).RunAt { f with phase := p } p := ⟨hready, rfl, rfl⟩

theorem State.RunAt.phase_eq {s : State} {f : InFlight} {p : Phase} (h : s.RunAt f p) : s.phase = p := by
  rw [State.phase, h.flight]
  exact h.phase

theorem State.RunAt.exec_run {s : State} {f : InFlight} {p : Phase} (h : s.RunAt f p) :
    exec .run s = .next (runStep s) := exec_own_of_ready h.ready rfl rfl

theorem State.RunAt.exec_top {s : State} {f : InFlight} (h : s.RunAt f .top) :
    exec .run s = .next (runAskMore s) := by
  rw [h.exec_run, runStep, h.phase_eq]

theorem State.RunAt.exec_needByte {s : State} {f : InFlight} (h : s.RunAt f .needByte) :
    exec .run s = .next (runTakeByte s) := by
  rw [h.exec_run, runStep, h.phase_eq]

theorem State.RunAt.exec_haveByte {s : State} {f : InFlight} {b : Byte} (h : s.RunAt f (.haveByte b)) :
    exec .run s = .next (runByteStep b s) := by
  rw [h.exec_run, runStep, h.phase_eq]

theorem State.RunAt.exec_putByte {s : State} {f : InFlight} {out : Byte} (h : s.RunAt f (.putByte out)) :
    exec .run s = .next (runPutByte out s) := by
  rw [h.exec_run, runStep, h.phase_eq]

theorem State.RunAt.exec_finalFlush {s : State} {f : InFlight} (h : s.RunAt f .finalFlush) :
    exec .run s = .next (flushOrFault State.complete s) := by
  rw [h.exec_run, runStep, h.phase_eq]

theorem State.RunAt.exec_faultFlush {s : State} {f : InFlight} {g : FaultInfo} (h : s.RunAt f (.faultFlush g)) :
    exec .run s = .next (runFaultFlush g s) := by
  rw [h.exec_run, runStep, h.phase_eq]

/-- `s` after an answered `SRC.has_more()` (45_host_and_diag.md R226). -/
abbrev State.asked (s : State) (a : Answer Bool) (rest : List (Answer Bool)) : State :=
  { s with srcMore := rest, trace := .hasMore a :: s.trace }

/-- Where the answer of `SRC.has_more()` leads a RUN (R195). -/
def phaseAfterAsk : Answer Bool → Phase
  | .ok true => .needByte
  | .ok false => .finalFlush
  | .err e => .faultFlush ⟨.ioSource, e, 0⟩

/-- `s` after an answered `SRC.next()` (45_host_and_diag.md R227). -/
abbrev State.taken (s : State) (a : Answer Byte) (rest : List (Answer Byte)) : State :=
  { s with srcNext := rest, trace := .next a :: s.trace }

/-- Where the answer of `SRC.next()` leads a RUN (R195). -/
def phaseAfterTake : Answer Byte → Phase
  | .ok b => .haveByte b
  | .err e => .faultFlush ⟨.ioSource, e, 1⟩

/-- `s` after an answered `SNK.write` (45_host_and_diag.md R228). -/
abbrev State.written (s : State) (out : Byte) (a : Answer Unit) (rest : List (Answer Unit)) : State :=
  { s with snkWrite := rest, trace := .write out a :: s.trace }

/-- Where the answer of `SNK.write` leads a RUN (R195). -/
def phaseAfterPut : Answer Unit → Phase
  | .ok _ => .top
  | .err e => .faultFlush ⟨.ioSink, e, 2⟩

theorem runAskMore_answered {s : State} {a : Answer Bool} {rest : List (Answer Bool)} (hmore : s.srcMore = a :: rest) :
    runAskMore s = (s.asked a rest).setPhase (phaseAfterAsk a) := by
  rw [runAskMore, State.srcHasMore, hmore]
  rcases a with (_ | _) | e <;> rfl

theorem runTakeByte_answered {s : State} {a : Answer Byte} {rest : List (Answer Byte)} (hnext : s.srcNext = a :: rest) :
    runTakeByte s = (s.taken a rest).setPhase (phaseAfterTake a) := by
  rw [runTakeByte, State.srcTake, hnext]
  cases a <;> rfl

theorem runPutByte_answered {s : State} {out : Byte} {a : Answer Unit} {rest : List (Answer Unit)}
    (hwrite : s.snkWrite = a :: rest) : runPutByte out s = (s.written out a rest).setPhase (phaseAfterPut a) := by
  rw [runPutByte, State.snkPut, hwrite]
  cases a <;> rfl

theorem runAskMore_waits {s : State} (hnone : s.srcMore = []) : runAskMore s = s := by
  rw [runAskMore, State.srcHasMore, hnone]

theorem runTakeByte_waits {s : State} (hnone : s.srcNext = []) : runTakeByte s = s := by
  rw [runTakeByte, State.srcTake, hnone]

theorem runPutByte_waits {s : State} (out : Byte) (hnone : s.snkWrite = []) : runPutByte out s = s := by
  rw [runPutByte, State.snkPut, hnone]

theorem State.RunAt.exec_ask {s : State} {f : InFlight} {a : Answer Bool} {rest : List (Answer Bool)} (h : s.RunAt f .top)
    (hmore : s.srcMore = a :: rest) : exec .run s = .next ((s.asked a rest).movedTo f (phaseAfterAsk a)) := by
  rw [h.exec_top, runAskMore_answered hmore, setPhase_of_inFlight (s := s.asked a rest) h.flight]

theorem State.RunAt.exec_take {s : State} {f : InFlight} {a : Answer Byte} {rest : List (Answer Byte)}
    (h : s.RunAt f .needByte) (hnext : s.srcNext = a :: rest) :
    exec .run s = .next ((s.taken a rest).movedTo f (phaseAfterTake a)) := by
  rw [h.exec_needByte, runTakeByte_answered hnext, setPhase_of_inFlight (s := s.taken a rest) h.flight]

theorem State.RunAt.exec_put {s : State} {f : InFlight} {out : Byte} {a : Answer Unit} {rest : List (Answer Unit)}
    (h : s.RunAt f (.putByte out)) (hwrite : s.snkWrite = a :: rest) :
    exec .run s = .next ((s.written out a rest).movedTo f (phaseAfterPut a)) := by
  rw [h.exec_putByte, runPutByte_answered hwrite, setPhase_of_inFlight (s := s.written out a rest) h.flight]

/-- Settles O55. -/
theorem runAsksItsSource : Obligations.RunAsksItsSource := by
  intro s f hready hf
  constructor
  · intro hphase
    have hrun : s.RunAt f .top := ⟨hready, hf, hphase⟩
    refine ⟨fun rest => hrun.exec_ask, fun rest => hrun.exec_ask, fun e rest => hrun.exec_ask, fun hnone => ?_⟩
    rw [hrun.exec_top, runAskMore_waits hnone]
  · intro hphase
    have hrun : s.RunAt f .needByte := ⟨hready, hf, hphase⟩
    refine ⟨fun b rest => hrun.exec_take, fun e rest => hrun.exec_take, fun hnone => ?_⟩
    rw [hrun.exec_needByte, runTakeByte_waits hnone]

/-- Settles O56. -/
theorem runWritesItsSink : Obligations.RunWritesItsSink := by
  intro s f out hready hf hphase
  have hrun : s.RunAt f (.putByte out) := ⟨hready, hf, hphase⟩
  refine ⟨fun rest => hrun.exec_put, fun e rest => hrun.exec_put, fun hnone => ?_⟩
  rw [hrun.exec_putByte, runPutByte_waits out hnone]

/-- Settles O57. -/
theorem runEndsWithFlush : Obligations.RunEndsWithFlush := by
  intro s f hready hf
  refine ⟨fun hphase => ?final, fun g hphase a rest h => ?fault, fun hphase h => ?waits⟩
  case final =>
    have hexec := State.RunAt.exec_finalFlush ⟨hready, hf, hphase⟩
    constructor
    · intro rest h
      rw [flushOrFault_ok _ h] at hexec
      exact ⟨_, hexec, rfl⟩
    · intro e rest h
      rw [flushOrFault_err _ h] at hexec
      exact ⟨_, hexec, rfl⟩
  case fault =>
    have hexec := State.RunAt.exec_faultFlush ⟨hready, hf, hphase⟩
    rw [runFaultFlush, snkSync_answered h] at hexec
    exact ⟨_, hexec, rfl⟩
  case waits =>
    rcases hphase with hphase | ⟨g, hphase⟩
    · rw [State.RunAt.exec_finalFlush ⟨hready, hf, hphase⟩, flushOrFault_waits _ h]
    · rw [State.RunAt.exec_faultFlush ⟨hready, hf, hphase⟩, runFaultFlush, snkSync_waits h]

/-! ## RUN's loop (R195, R201) -/

/-- A core step of a RUN in flight. -/
theorem State.RunAt.coreSteps_succ {s t : State} {f : InFlight} {p : Phase} (h : s.RunAt f p)
    (hdec : decode f.word = .ok .run) (hexec : exec .run s = .next t) (k : Nat) : coreSteps (k + 1) s = coreSteps k t :=
  coreSteps_busy k (busy_of_inFlight h.flight) ((coreStep_of_decode h.flight hdec).trans hexec)

theorem State.RunAt.exec_commit {s : State} {f : InFlight} {b : Byte} (h : s.RunAt f (.haveByte b))
    (hview : s.viewExhausted = false) (hpool : s.nextPool b < 2 ^ 64) :
    exec .run s = .next ((s.emit b).movedTo f (.putByte (s.outByte b))) := by
  rw [h.exec_haveByte, runByteStep, if_neg (by simp [hview]), byteStep_commit hpool]
  exact congrArg _ (setPhase_of_inFlight (s := s.emit b) h.flight _)

theorem State.RunAt.exec_overflow {s : State} {f : InFlight} {b : Byte} (h : s.RunAt f (.haveByte b))
    (hview : s.viewExhausted = false) (hpool : 2 ^ 64 ≤ s.nextPool b) :
    exec .run s = .next (s.movedTo f (.faultFlush ⟨.poolOverflow, 0, 0⟩)) := by
  rw [h.exec_haveByte, runByteStep, if_neg (by simp [hview]), byteStep_overflow hpool, ← setPhase_of_inFlight h.flight]

/-- Four core steps move one byte: ask, take, transform, write. -/
theorem State.RunAt.coreSteps_oneByte {s : State} {f : InFlight} {b : Byte} {more : List (Answer Bool)}
    {next : List (Answer Byte)} {write : List (Answer Unit)} (h : s.RunAt f .top) (hdec : decode f.word = .ok .run)
    (hview : s.viewExhausted = false) (hmore : s.srcMore = .ok true :: more) (hnext : s.srcNext = .ok b :: next)
    (hwrite : s.snkWrite = .ok () :: write) (hpool : s.nextPool b < 2 ^ 64) :
    coreSteps 4 s =
      { s.emit b with
        srcMore := more, srcNext := next, snkWrite := write
        trace := .write (s.outByte b) (.ok ()) :: .next (.ok b) :: .hasMore (.ok true) :: s.trace } := by
  have hneed := runAt_movedTo (s := s.asked (.ok true) more) f .needByte h.ready
  have hhave := runAt_movedTo (s := (s.asked (.ok true) more).taken (.ok b) next) f (.haveByte b) h.ready
  have hput := runAt_movedTo (s := ((s.asked (.ok true) more).taken (.ok b) next).emit b) f (.putByte (s.outByte b)) h.ready
  have hback : some { f with phase := .top } = s.inFlight := by rw [h.flight, ← h.phase]
  calc coreSteps 4 s
    _ = coreSteps 3 ((s.asked (.ok true) more).movedTo f .needByte) := h.coreSteps_succ hdec (h.exec_ask hmore) 3
    _ = coreSteps 2 (((s.asked (.ok true) more).taken (.ok b) next).movedTo f (.haveByte b)) :=
      hneed.coreSteps_succ hdec (hneed.exec_take hnext) 2
    _ = coreSteps 1 ((((s.asked (.ok true) more).taken (.ok b) next).emit b).movedTo f (.putByte (s.outByte b))) :=
      hhave.coreSteps_succ hdec (hhave.exec_commit hview hpool) 1
    _ = ((((s.asked (.ok true) more).taken (.ok b) next).emit b).written (s.outByte b) (.ok ()) write).movedTo f .top :=
      hput.coreSteps_succ hdec (hput.exec_put hwrite) 0
    _ = _ := by
      rw [State.movedTo, hback]
      rfl

/-- Settles O58. -/
theorem runMovesOneByte : Obligations.RunMovesOneByte := by
  refine ⟨?moves, ?fetches, ?overflows⟩
  case moves =>
    intro s u f b out more next write hready hf hphase hdec hview hmore hnext hwrite hstep
    obtain ⟨hpool, rfl, rfl⟩ := byteStep_ok_iff.mp hstep
    exact State.RunAt.coreSteps_oneByte ⟨hready, hf, hphase⟩ hdec hview hmore hnext hwrite hpool
  case fetches =>
    intro s f b hready hf hphase hview hwf
    have hexec := State.RunAt.exec_run ⟨hready, hf, hphase⟩
    rw [runStep_haveByte_exhausted hf hphase ((viewExhausted_iff s).mpr hview)] at hexec
    exact ⟨_, hexec, termFetched_fetchRound hwf⟩
  case overflows =>
    intro s f b hready hf hphase hcur hpool
    exact State.RunAt.exec_overflow ⟨hready, hf, hphase⟩ ((viewExhausted_eq_false_iff s).mpr hcur) hpool

/-- Settles O59: the question answered false leads to the flush that completes the command. -/
theorem runOnEmptySourceOnlyFlushes : Obligations.RunOnEmptySourceOnlyFlushes := by
  intro s f more flush hready hf hphase hdec hmore hflush
  have htop : s.RunAt f .top := ⟨hready, hf, hphase⟩
  have hfinal := runAt_movedTo (s := s.asked (.ok false) more) f .finalFlush hready
  have hended := hfinal.exec_finalFlush.trans (congrArg _ (flushOrFault_ok State.complete hflush))
  have hsteps := (htop.coreSteps_succ hdec (htop.exec_ask hmore) 1).trans (hfinal.coreSteps_succ hdec hended 0)
  rw [hsteps]
  rfl

end Sys2Proof.Machine
end

section
/-! PROOFS. The round trip of a stream through XFORM (44_xform_engine.md R198).

An XFORM fetches until its view is unread (`State.readied`, at most ten rounds of a live ring) and then makes one byte step, so
a whole XFORM is one equation of states (`xformByte_eq`). R198's proof is then an induction on the stream: the engine that
encrypts and the one that decrypts stand in lockstep, equal in every register that the key stream depends on, and a byte
encrypted by the one and decrypted by the other leaves them so (`State.Lockstep.emit`). -/

namespace Sys2Proof.Machine

/-! ## Fetching until the view is unread (R193 step 1, 43_keygen_fsm.md R168) -/

/-- A round of `next()`, where the view is exhausted. -/
def State.fetch (s : State) : State := if s.viewExhausted then s.fetchRound else s

/-- As many rounds as step 1 needs of a live ring. -/
def State.readied (s : State) : State := State.fetch^[10] s

theorem fetch_exhausted {s : State} (hview : s.viewExhausted = true) : s.fetch = s.fetchRound := if_pos hview

theorem fetch_unread {s : State} (hview : s.viewExhausted = false) : s.fetch = s := if_neg (by simp [hview])

theorem iterate_fetch_unread {s : State} (hview : s.viewExhausted = false) (k : Nat) : State.fetch^[k] s = s :=
  Function.iterate_fixed (fetch_unread hview) k

theorem iterate_fetch_skips {s : State} {r : Nat} (hview : s.viewExhausted = true) (hskips : s.Skips r) :
    State.fetch^[r] s = s.afterRounds r := by
  induction r with
  | zero => rfl
  | succ r ih =>
    have hview' : (s.afterRounds r).viewExhausted = true := (viewExhausted_afterRounds s r).trans hview
    rw [Function.iterate_succ_apply', ih fun q hq => hskips q (by omega), fetch_exhausted hview',
      fetchRound_skip (hskips r r.lt_succ_self), afterRounds_succ]

/-- The ring can yield: its storage is canonical and one of the ten newest terms is usable. -/
structure State.LiveRing (s : State) : Prop where
  wf : s.digits.wf = true
  alive : s.RingAlive

theorem SameRing.liveRing {s t : State} (h : SameRing s t) (hlive : s.LiveRing) : t.LiveRing := by
  refine ⟨?_, h.ringAlive hlive.alive⟩
  obtain ⟨hdigits, _, _⟩ := h
  rw [hdigits]
  exact hlive.wf

theorem State.LiveRing.fetch {s : State} (h : s.LiveRing) : s.fetch.LiveRing := by
  cases hview : s.viewExhausted with
  | false => rwa [fetch_unread hview]
  | true =>
    have hadvanced : s.advanceTerm.LiveRing := ⟨wf_advanceTerm h.wf, ringAlive_advanceTerm h.wf h.alive⟩
    rw [fetch_exhausted hview]
    exact (sameRing_fetchRound s).liveRing hadvanced

theorem State.LiveRing.readied {s : State} (h : s.LiveRing) : s.readied.LiveRing :=
  Function.Iterate.rec State.LiveRing h (fun _ => State.LiveRing.fetch) 10

/-- A live ring yields in time: one of the ten rounds installs a view (43_keygen_fsm.md R168 (a)). -/
theorem viewExhausted_readied {s : State} (h : s.LiveRing) : s.readied.viewExhausted = false := by
  cases hview : s.viewExhausted with
  | false => rwa [State.readied, iterate_fetch_unread hview]
  | true =>
    obtain ⟨r, hr, hskips, hyield⟩ := exists_yield h.wf h.alive
    have hview' : (s.afterRounds r).viewExhausted = true := (viewExhausted_afterRounds s r).trans hview
    have hfresh := viewExhausted_installView hyield
    have hinstalled : State.fetch^[r + 1] s = (s.afterRounds r).advanceTerm.installView := by
      rw [Function.iterate_succ_apply', iterate_fetch_skips hview hskips, fetch_exhausted hview', fetchRound_yield hyield]
    rw [State.readied, show 10 = 9 - r + (r + 1) by omega, Function.iterate_add_apply, hinstalled,
      iterate_fetch_unread hfresh]
    exact hfresh

/-- Only the chain, its view and J differ. -/
def OnlyChain (s t : State) : Prop :=
  t = { s with digits := t.digits, n := t.n, e := t.e, viewLen := t.viewLen, viewCur := t.viewCur, j := t.j }

theorem OnlyChain.refl (s : State) : OnlyChain s s := rfl

theorem OnlyChain.trans {s t u : State} (h : OnlyChain s t) (k : OnlyChain t u) : OnlyChain s u := by
  unfold OnlyChain at *
  rw [k, h]

theorem OnlyChain.state {s t : State} (h : OnlyChain s t) : t.state = s.state := by rw [h]

theorem OnlyChain.inFlight {s t : State} (h : OnlyChain s t) : t.inFlight = s.inFlight := by rw [h]

theorem OnlyChain.mode {s t : State} (h : OnlyChain s t) : t.mode = s.mode := by rw [h]

theorem OnlyChain.pool {s t : State} (h : OnlyChain s t) : t.pool = s.pool := by rw [h]

theorem OnlyChain.latchedDin {s t : State} (h : OnlyChain s t) : t.latchedDin = s.latchedDin := by
  rw [h]
  rfl

theorem onlyChain_fetch (s : State) : OnlyChain s s.fetch := by
  cases hview : s.viewExhausted with
  | false => rw [fetch_unread hview]; exact .refl s
  | true =>
    rw [fetch_exhausted hview]
    rcases fetchRound_cases s with ⟨_, h⟩ | ⟨_, h⟩ <;> rw [h] <;> rfl

theorem onlyChain_readied (s : State) : OnlyChain s s.readied :=
  Function.Iterate.rec (OnlyChain s) (.refl s) (fun t h => h.trans (onlyChain_fetch t)) 10

/-! ## A whole XFORM (R194) -/

/-- An XFORM in flight fetches as long as its view is exhausted, and ends with its byte step. -/
theorem coreSteps_xform {s : State} {f : InFlight} (hready : s.state = .ready) (hf : s.inFlight = some f)
    (hdec : decode f.word = .ok .xform) (k : Nat) (hview : (State.fetch^[k] s).viewExhausted = false) :
    coreSteps (k + 1) s = xformStep (State.fetch^[k] s) := by
  have hstep : ∀ {t : State}, t.state = .ready → t.inFlight = some f → coreStep t = .next (xformStep t) :=
    fun hready hf => coreStep_own_of_ready hready hf hdec rfl rfl
  induction k generalizing s with
  | zero => exact coreSteps_busy 0 (busy_of_inFlight hf) (hstep hready hf)
  | succ k ih =>
    rw [coreSteps_busy (k + 1) (busy_of_inFlight hf) (hstep hready hf)]
    cases hnow : s.viewExhausted with
    | true =>
      have hfetch := onlyChain_fetch s
      rw [xformStep_exhausted hnow, ← fetch_exhausted hnow]
      exact ih (hfetch.state.trans hready) (hfetch.inFlight.trans hf) hview
    | false =>
      obtain ⟨t, ht, hended, _⟩ := coreStep_xform_unread hready hf hdec hnow
      obtain rfl : xformStep s = t := Host.Outcome.next.inj ((hstep hready hf).symm.trans ht)
      rw [coreSteps_idle _ hended, iterate_fetch_unread hnow]

theorem coreSteps_xform_readied {s : State} {f : InFlight} (hready : s.state = .ready) (hf : s.inFlight = some f)
    (hdec : decode f.word = .ok .xform) (hview : s.readied.viewExhausted = false) :
    coreSteps 11 s = xformStep s.readied := by
  rw [State.readied] at hview ⊢
  exact coreSteps_xform hready hf hdec 10 hview

/-- `s` with byte `b` in DIN and an XFORM just accepted (30_encoding.md R70). -/
def State.given (s : State) (b : Byte) : State := ({ s with din := b } : State).accept (encode .xform)

/-- The state that XFORM's byte step of `b` starts from. -/
def State.forByte (s : State) (b : Byte) : State := (s.given b).readied

theorem onlyChain_forByte (s : State) (b : Byte) : OnlyChain (s.given b) (s.forByte b) := onlyChain_readied _

theorem latchedDin_forByte (s : State) (b : Byte) : (s.forByte b).latchedDin = b := (onlyChain_forByte s b).latchedDin

/-- An engine open in `mode`, no command in flight, its ring alive. -/
structure State.OpenIn (s : State) (mode : Mode) : Prop where
  ready : s.state = .ready
  idle : s.inFlight = none
  mode_eq : s.mode = mode
  live : s.LiveRing

theorem hostWrites_eq_given {s : State} {mode : Mode} (h : s.OpenIn mode) (b : Byte) :
    (s.hostWrite 0x14 (b.setWidth 32)).hostWrite 0x10 (encode .xform) = s.given b := by
  have hdin : (b.setWidth 32).extractLsb' 0 8 = b := by
    apply BitVec.eq_of_toNat_eq
    rw [BitVec.extractLsb'_toNat, BitVec.toNat_setWidth_of_le (by decide), Nat.shiftRight_zero, Nat.mod_eq_of_lt b.isLt]
  have hwrite : s.hostWrite 0x14 (b.setWidth 32) = { s with din := b } := by
    conv_rhs => rw [← hdin]
    rfl
  rw [hwrite]
  exact deliverCommand_accepted (s := { s with din := b }) (by simp [h.ready]) h.idle _

theorem State.OpenIn.liveRing_given {s : State} {mode : Mode} (h : s.OpenIn mode) (b : Byte) : (s.given b).LiveRing :=
  SameRing.liveRing (s := s) ⟨rfl, rfl, rfl⟩ h.live

theorem State.OpenIn.liveRing_forByte {s : State} {mode : Mode} (h : s.OpenIn mode) (b : Byte) : (s.forByte b).LiveRing :=
  (h.liveRing_given b).readied

theorem State.OpenIn.viewExhausted_forByte {s : State} {mode : Mode} (h : s.OpenIn mode) (b : Byte) :
    (s.forByte b).viewExhausted = false := viewExhausted_readied (h.liveRing_given b)

theorem nextPool_le (s : State) (xin : Byte) : s.nextPool xin ≤ s.pool.toNat + 1 := by
  have hdrained : s.drainedPool ≤ s.pool.toNat := by
    rw [State.drainedPool]
    split
    · exact Nat.div_le_self _ _
    · exact le_rfl
  exact Nat.add_le_add hdrained (quot_transformByte_le_one s.mode (toNat_byte_le xin) (stepKey_le s))

theorem nextPool_forByte_le (s : State) (b xin : Byte) : (s.forByte b).nextPool xin ≤ s.pool.toNat + 1 := by
  have hle := nextPool_le (s.forByte b) xin
  rwa [(onlyChain_forByte s b).pool] at hle

/-- XFORM of one byte, below the pool's range: the rounds it needs, then the byte step of DIN. -/
theorem xformByte_eq {s : State} {mode : Mode} (h : s.OpenIn mode) (b : Byte) (hroom : s.pool.toNat + 1 < 2 ^ 64) :
    xformByte s b = ((s.forByte b).emit b).complete := by
  have hunread := h.viewExhausted_forByte b
  have hdec : decode (encode .xform) = .ok .xform := decodeEncodeRoundTrip .xform rfl
  have hpool : (s.forByte b).nextPool (s.forByte b).latchedDin < 2 ^ 64 := (nextPool_forByte_le s b _).trans_lt hroom
  calc xformByte s b
    _ = coreSteps 11 (s.given b) := congrArg (coreSteps 11) (hostWrites_eq_given h b)
    _ = xformStep (s.forByte b) := coreSteps_xform_readied (f := ⟨encode .xform, b, .top⟩) h.ready rfl hdec hunread
    _ = ((s.forByte b).emit (s.forByte b).latchedDin).complete := xformStep_commit hunread hpool
    _ = ((s.forByte b).emit b).complete := by rw [latchedDin_forByte]

theorem openIn_of_emit {s : State} {mode : Mode} (hready : s.state = .ready) (hmode : s.mode = mode) (hlive : s.LiveRing)
    (b : Byte) : (s.emit b).complete.OpenIn mode :=
  ⟨hready, rfl, hmode, SameRing.liveRing (s := s) ⟨rfl, rfl, rfl⟩ hlive⟩

theorem State.OpenIn.xformByte {s : State} {mode : Mode} (h : s.OpenIn mode) (b : Byte) (hroom : s.pool.toNat + 1 < 2 ^ 64) :
    (xformByte s b).OpenIn mode := by
  have hchain := onlyChain_forByte s b
  have hlive := h.liveRing_forByte b
  rw [xformByte_eq h b hroom]
  exact openIn_of_emit (hchain.state.trans h.ready) (hchain.mode.trans h.mode_eq) hlive b

/-- Each step adds at most 1 to the pool (R196). -/
theorem toNat_pool_xformByte_le {s : State} {mode : Mode} (h : s.OpenIn mode) (b : Byte) (hroom : s.pool.toNat + 1 < 2 ^ 64) :
    (xformByte s b).pool.toNat ≤ s.pool.toNat + 1 := by
  rw [xformByte_eq h b hroom]
  exact (Nat.mod_le _ _).trans (nextPool_forByte_le s b b)

theorem dout_xformByte {s : State} {mode : Mode} (h : s.OpenIn mode) (b : Byte) (hroom : s.pool.toNat + 1 < 2 ^ 64) :
    (xformByte s b).dout = (s.forByte b).outByte b := by
  rw [xformByte_eq h b hroom]
  rfl

/-! ## Lockstep (R198) -/

/-- Two states agree in every register that the key stream depends on. -/
structure State.Lockstep (s t : State) : Prop where
  digits : t.digits = s.digits
  keyLen : t.keyLen = s.keyLen
  e : t.e = s.e
  viewLen : t.viewLen = s.viewLen
  viewCur : t.viewCur = s.viewCur
  j : t.j = s.j
  pool : t.pool = s.pool
  prev : t.prev = s.prev

/-- Lockstep as one equation: a function of these registers alone is the same at both states. -/
theorem State.Lockstep.eq {s t : State} (h : s.Lockstep t) :
    t =
      { t with
        digits := s.digits, keyLen := s.keyLen, e := s.e, viewLen := s.viewLen, viewCur := s.viewCur, j := s.j
        pool := s.pool, prev := s.prev } := by
  rw [← h.digits, ← h.keyLen, ← h.e, ← h.viewLen, ← h.viewCur, ← h.j, ← h.pool, ← h.prev]

theorem State.Lockstep.viewExhausted {s t : State} (h : s.Lockstep t) : t.viewExhausted = s.viewExhausted := by
  rw [h.eq]
  rfl

theorem State.Lockstep.newestUsable {s t : State} (h : s.Lockstep t) : t.newestUsable = s.newestUsable := by
  rw [h.eq]
  rfl

theorem State.Lockstep.stepIndex {s t : State} (h : s.Lockstep t) : t.stepIndex = s.stepIndex := by
  rw [h.eq]
  rfl

theorem State.Lockstep.stepKey {s t : State} (h : s.Lockstep t) : t.stepKey = s.stepKey := by
  rw [h.eq]
  rfl

theorem State.Lockstep.drainedPool {s t : State} (h : s.Lockstep t) : t.drainedPool = s.drainedPool := by
  rw [h.eq]
  rfl

theorem State.Lockstep.advanceTerm {s t : State} (h : s.Lockstep t) : s.advanceTerm.Lockstep t.advanceTerm := by
  rw [h.eq]
  exact ⟨rfl, rfl, rfl, rfl, rfl, rfl, rfl, rfl⟩

theorem State.Lockstep.installView {s t : State} (h : s.Lockstep t) : s.installView.Lockstep t.installView :=
  ⟨h.digits, h.keyLen, h.e, congrArg (BitVec.ofNat 16) h.newestUsable, rfl, rfl, h.pool, h.prev⟩

/-- The same rounds yield the same terms on both sides. -/
theorem State.Lockstep.fetchRound {s t : State} (h : s.Lockstep t) : s.fetchRound.Lockstep t.fetchRound := by
  have husable := h.advanceTerm.newestUsable
  rcases fetchRound_cases s with ⟨hskip, hs⟩ | ⟨hyield, hs⟩ <;> rw [hs]
  · rw [fetchRound_skip (husable.trans hskip)]
    exact h.advanceTerm
  · rw [fetchRound_yield (husable.trans_ne hyield)]
    exact h.advanceTerm.installView

theorem State.Lockstep.fetch {s t : State} (h : s.Lockstep t) : s.fetch.Lockstep t.fetch := by
  have hsame := h.viewExhausted
  cases hview : s.viewExhausted with
  | false => rwa [fetch_unread hview, fetch_unread (hsame.trans hview)]
  | true =>
    rw [fetch_exhausted hview, fetch_exhausted (hsame.trans hview)]
    exact h.fetchRound

theorem State.Lockstep.iterate_fetch {s t : State} (h : s.Lockstep t) (k : Nat) :
    (State.fetch^[k] s).Lockstep (State.fetch^[k] t) := by
  induction k generalizing s t with
  | zero => exact h
  | succ k ih => exact ih h.fetch

theorem State.Lockstep.forByte {s t : State} (h : s.Lockstep t) (b c : Byte) : (s.forByte b).Lockstep (t.forByte c) := by
  have hgiven : (s.given b).Lockstep (t.given c) :=
    ⟨h.digits, h.keyLen, h.e, h.viewLen, h.viewCur, h.j, h.pool, h.prev⟩
  exact hgiven.iterate_fetch 10

/-- In lockstep, decryption undoes encryption with the same key byte and the same `q`. -/
theorem State.Lockstep.transformed {s t : State} (h : s.Lockstep t) (hs : s.mode = .encrypt) (ht : t.mode = .decrypt)
    (b : Byte) : t.transformed (s.outByte b) = ⟨b.toNat, (s.transformed b).quot, b.toNat⟩ := by
  have hout : (s.outByte b).toNat = (encryptByte b.toNat s.stepKey).out := by
    rw [State.outByte, State.transformed, hs]
    exact (BitVec.toNat_ofNat ..).trans (Nat.mod_mod _ 256)
  rw [State.transformed, ht, h.stepKey, hout, State.transformed, hs]
  exact decryptByte_encryptByte (toNat_byte_le b) (stepKey_le s)

/-- One byte of R198: what encryption emits, decryption turns back, and the engines stay in lockstep. -/
theorem State.Lockstep.emit {s t : State} (h : s.Lockstep t) (hs : s.mode = .encrypt) (ht : t.mode = .decrypt) (b : Byte) :
    (s.emit b).Lockstep (t.emit (s.outByte b)) ∧ t.outByte (s.outByte b) = b := by
  have htransformed := h.transformed hs ht b
  have hplain : (s.transformed b).plain = b.toNat := by
    rw [State.transformed, hs]
    rfl
  constructor
  · refine ⟨h.digits, h.keyLen, h.e, h.viewLen, congrArg (· + 1) h.viewCur, congrArg (BitVec.ofNat 16) h.stepIndex, ?pool,
      ?prev⟩
    case pool =>
      have hnext : t.nextPool (s.outByte b) = s.nextPool b := by
        rw [State.nextPool, htransformed, h.drainedPool]
      exact congrArg (BitVec.ofNat 64) hnext
    case prev =>
      have hprev : (t.transformed (s.outByte b)).plain = (s.transformed b).plain := by rw [htransformed, hplain]
      exact congrArg (BitVec.ofNat 8) hprev
  · rw [State.outByte, htransformed, BitVec.ofNat_toNat, BitVec.setWidth_eq]

theorem State.Lockstep.complete {s t : State} (h : s.Lockstep t) : s.complete.Lockstep t.complete :=
  ⟨h.digits, h.keyLen, h.e, h.viewLen, h.viewCur, h.j, h.pool, h.prev⟩

theorem State.Lockstep.xformByte {s t : State} (h : s.Lockstep t) (hs : s.OpenIn .encrypt) (ht : t.OpenIn .decrypt)
    (hroom : s.pool.toNat + 1 < 2 ^ 64) (b : Byte) :
    (xformByte s b).Lockstep (xformByte t (xformByte s b).dout) ∧ (xformByte t (xformByte s b).dout).dout = b := by
  have hroom' : t.pool.toNat + 1 < 2 ^ 64 := by rwa [h.pool]
  have hsmode : (s.forByte b).mode = .encrypt := (onlyChain_forByte s b).mode.trans hs.mode_eq
  have htmode : ∀ c, (t.forByte c).mode = .decrypt := fun c =>
    (onlyChain_forByte t c).mode.trans ht.mode_eq
  obtain ⟨hlock, hback⟩ := (h.forByte b ((s.forByte b).outByte b)).emit hsmode (htmode _) b
  rw [dout_xformByte hs b hroom, dout_xformByte ht _ hroom', xformByte_eq hs b hroom, xformByte_eq ht _ hroom']
  exact ⟨hlock.complete, hback⟩

/-! ## The stream (R198) -/

theorem xformStream_roundTrip {s t : State} {bytes : List Byte} (h : s.Lockstep t) (hs : s.OpenIn .encrypt)
    (ht : t.OpenIn .decrypt) (hroom : s.pool.toNat + bytes.length < 2 ^ 64) :
    (xformStream (xformStream bytes s).2 t).2 = bytes ∧ (xformStream bytes s).1.state = .ready ∧
      (xformStream (xformStream bytes s).2 t).1.state = .ready := by
  induction bytes generalizing s t with
  | nil => exact ⟨rfl, hs.ready, ht.ready⟩
  | cons b bs ih =>
    rw [List.length_cons] at hroom
    have hone : s.pool.toNat + 1 < 2 ^ 64 := by omega
    have hpool := toNat_pool_xformByte_le hs b hone
    obtain ⟨hlock, hback⟩ := h.xformByte hs ht hone b
    obtain ⟨hrest, hsend, htend⟩ := ih hlock (hs.xformByte b hone) (ht.xformByte _ (h.pool ▸ hone)) (by omega)
    exact ⟨congrArg₂ List.cons hback hrest, hsend, htend⟩

/-- An OPEN with a key that is not all zero builds, from storage the mode has no part in, an engine ready for a stream
(R190, R198). -/
theorem exists_opened {s : State} (hpassword : s.password ≠ 0) (hm : s.m ≠ 0) (hidle : s.state = .idle) :
    ∃ t : State, ∀ i mode, (i = .openEnc ∧ mode = .encrypt) ∨ (i = .openDec ∧ mode = .decrypt) →
      exec i s = .next (t.startView.startEngine mode).complete ∧ (t.startView.startEngine mode).complete.OpenIn mode := by
  obtain ⟨t, hseed, hstored, _⟩ := seed_seeded (s := s.zeroSlots) rfl
  refine ⟨t, fun i mode hi => ?_⟩
  have hexec := exec_open_own hi hidle
  rw [openStep_of_seeded mode hm hseed] at hexec
  have hopen : i = .openEnc ∨ i = .openDec := hi.imp And.left And.left
  obtain ⟨halive, _⟩ := openedRingLivesUnlessKeyZero s _ i hopen hidle hexec rfl
  exact ⟨hexec, rfl, rfl, rfl, hstored.wf, halive hpassword⟩

theorem m_ne_zero_of_password {s : State} (hpassword : s.password ≠ 0) : s.m ≠ 0 := by
  intro hm
  have hlt := password_lt s
  rw [hm] at hlt
  omega

/-- Settles O60. -/
theorem streamRoundTrip : Obligations.StreamRoundTrip := by
  intro s enc dec bytes hidle hpassword henc _ hdec hlen
  obtain ⟨t, hopened⟩ := exists_opened hpassword (m_ne_zero_of_password hpassword) hidle
  obtain ⟨hexecEnc, hopenEnc⟩ := hopened .openEnc .encrypt (.inl ⟨rfl, rfl⟩)
  obtain ⟨hexecDec, hopenDec⟩ := hopened .openDec .decrypt (.inr ⟨rfl, rfl⟩)
  obtain rfl := Host.Outcome.next.inj (henc.symm.trans hexecEnc)
  obtain rfl := Host.Outcome.next.inj (hdec.symm.trans hexecDec)
  refine xformStream_roundTrip ⟨rfl, rfl, rfl, rfl, rfl, rfl, rfl, rfl⟩ hopenEnc hopenDec ?_
  rw [State.complete_pool, State.startEngine_pool]
  exact (Nat.zero_add _).trans_lt hlen

end Sys2Proof.Machine
end

section
/-! PROOFS. The diagnostic commands NOP, DRD and DWR (45_host_and_diag.md R220, R222, R223), and which commands use the ports
(R225).

That a command other than RUN and CLOSE leaves the trace alone is `portsQuiet_ownStep`; that one step of RUN or CLOSE adds at
most one transaction to it is read off RUN's phases, each of which makes one transaction or none. -/

namespace Sys2Proof.Machine

/-! ## NOP, DRD and DWR (R220, R222, R223) -/

/-- A command legal in IDLE and READY, with operands in range, is its own step in either. -/
theorem exec_own_of_idle_or_ready {s : State} {i : Instr} (hst : s.state = .idle ∨ s.state = .ready)
    (hidle : legalIn i .idle = true) (hready : legalIn i .ready = true) (hrange : operandsInRange s.wT i = true) :
    exec i s = .next (ownStep i s) :=
  hst.elim (exec_own_of_idle · hidle hrange) (exec_own_of_ready · hready hrange)

/-- Slots 0 to 11 and the active digits are in range for DRD and DWR (30_encoding.md R73, R74). -/
theorem digitOperandsInRange {wT slot k : Nat} (hslot : slot ≤ 11) (hk : k < wT) : (anySlotOk slot && k < wT) = true := by
  rw [(anySlotOk_iff slot).mpr hslot, decide_eq_true hk]
  rfl

/-- Settles O33. -/
theorem nopCompletes : Obligations.NopCompletes := by
  intro s hst
  exact ⟨s.complete, exec_own_of_idle_or_ready hst rfl rfl rfl, rfl⟩

/-- Settles O34. -/
theorem drdReadsDigit : Obligations.DrdReadsDigit := by
  intro s slot k hst hslot hk
  exact ⟨drdStep slot k s, exec_own_of_idle_or_ready hst rfl rfl (digitOperandsInRange hslot hk), rfl⟩

/-- Settles O35: storage in canonical form reads after the one write as R223 says. -/
theorem dwrWritesDigit : Obligations.DwrWritesDigit := by
  intro s slot k hidle hslot hk hwf
  exact ⟨dwrStep slot k s, exec_own_of_idle hidle rfl (digitOperandsInRange hslot hk), rfl,
    Memory.read_write hwf (digitAddr slot k) s.latchedDin⟩

/-! ## At most one port transaction a step (R225) -/

/-- The trace from `s` to `t` is as it was, or one transaction longer. -/
def AtMostOneTransaction (s t : State) : Prop := t.trace = s.trace ∨ ∃ ev, t.trace = ev :: s.trace

theorem atMostOne_flushOrFault {onOk : State → State} (hok : ∀ t, (onOk t).trace = t.trace) (s : State) :
    AtMostOneTransaction s (flushOrFault onOk s) := by
  cases h : s.snkFlush with
  | nil => exact .inl (by rw [flushOrFault_waits onOk h])
  | cons a rest =>
    refine .inr ⟨.flush a, ?_⟩
    cases a with
    | ok _ => rw [flushOrFault_ok onOk h, hok]
    | err e => rw [flushOrFault_err onOk h, State.raise_trace]

theorem atMostOne_runAskMore (s : State) : AtMostOneTransaction s (runAskMore s) := by
  cases h : s.srcMore with
  | nil => exact .inl (by rw [runAskMore_waits h])
  | cons a rest => exact .inr ⟨.hasMore a, by rw [runAskMore_answered h, State.setPhase_trace]⟩

theorem atMostOne_runTakeByte (s : State) : AtMostOneTransaction s (runTakeByte s) := by
  cases h : s.srcNext with
  | nil => exact .inl (by rw [runTakeByte_waits h])
  | cons a rest => exact .inr ⟨.next a, by rw [runTakeByte_answered h, State.setPhase_trace]⟩

/-- The byte step of RUN, a fetch included, makes no transaction. -/
theorem trace_runByteStep (b : Byte) (s : State) : (runByteStep b s).trace = s.trace := by
  unfold runByteStep
  split
  · exact (portsQuiet_fetchRound s).1
  · split
    · rfl
    · next t out hbyte =>
      have htrace : t.trace = s.trace := trace_byteStep hbyte
      exact htrace

theorem atMostOne_runPutByte (out : Byte) (s : State) : AtMostOneTransaction s (runPutByte out s) := by
  cases h : s.snkWrite with
  | nil => exact .inl (by rw [runPutByte_waits out h])
  | cons a rest => exact .inr ⟨.write out a, by rw [runPutByte_answered h, State.setPhase_trace]⟩

theorem atMostOne_runFaultFlush (g : FaultInfo) (s : State) : AtMostOneTransaction s (runFaultFlush g s) := by
  unfold runFaultFlush
  rcases snkSync_cases s with ⟨_, h⟩ | ⟨a, rest, _, h⟩ <;> rw [h]
  · exact .inl rfl
  · exact .inr ⟨.flush a, rfl⟩

/-- Each phase of RUN makes its one transaction, waits for its answer, or is the byte step (44_xform_engine.md R195). -/
theorem atMostOne_runStep (s : State) : AtMostOneTransaction s (runStep s) := by
  unfold runStep
  cases s.phase with
  | top => exact atMostOne_runAskMore s
  | needByte => exact atMostOne_runTakeByte s
  | haveByte b => exact .inl (trace_runByteStep b s)
  | putByte out => exact atMostOne_runPutByte out s
  | finalFlush => exact atMostOne_flushOrFault State.complete_trace s
  | faultFlush g => exact atMostOne_runFaultFlush g s

/-- CLOSE makes its one flush or waits for its answer (44_xform_engine.md R197). -/
theorem atMostOne_closeStep (s : State) : AtMostOneTransaction s (closeStep s) := by
  unfold closeStep
  exact atMostOne_flushOrFault (fun t => State.complete_trace { t with state := .idle }) s

/-- From `s` to `t` the ports stand still, or RUN or CLOSE, the command `i`, makes one transaction (R225). -/
def QuietOrStreams (i : Instr) (s t : State) : Prop :=
  t.trace = s.trace ∨ ((i = .run ∨ i = .close) ∧ ∃ ev, t.trace = ev :: s.trace)

theorem quietOrStreams_ownStep (i : Instr) (s : State) : QuietOrStreams i s (ownStep i s) := by
  by_cases hrun : i = .run
  · subst hrun
    exact (atMostOne_runStep s).imp_right fun hone => ⟨.inl rfl, hone⟩
  by_cases hclose : i = .close
  · subst hclose
    exact (atMostOne_closeStep s).imp_right fun hone => ⟨.inr rfl, hone⟩
  exact .inl (portsQuiet_ownStep hrun hclose s).1

theorem quietOrStreams_exec {i : Instr} {s t : State} (h : exec i s = .next t) : QuietOrStreams i s t := by
  rw [exec_eq_checked] at h
  rcases checked_cases h with ⟨_, rfl⟩ | ⟨_, _, rfl⟩ | ⟨_, _, _, rfl⟩ | ⟨_, _, _, rfl⟩
  · exact .inl rfl
  · exact .inl (State.raise_trace s _)
  · exact .inl (State.raise_trace s _)
  · exact quietOrStreams_ownStep i s

/-- The core's step makes no transaction, or one for the RUN or the CLOSE in flight. -/
theorem coreStep_ports {s t : State} (h : coreStep s = .next t) :
    t.trace = s.trace ∨
      (∃ ev, t.trace = ev :: s.trace) ∧
        ∃ f, s.inFlight = some f ∧ (decode f.word = .ok .run ∨ decode f.word = .ok .close) := by
  rcases coreStep_cases s with ⟨_, h'⟩ | ⟨f, i, hf, hdec, h'⟩ | ⟨f, e, _, _, h'⟩ <;> rw [h'] at h
  · cases h
    exact .inl rfl
  · refine (quietOrStreams_exec h).imp_right ?_
    rintro ⟨rfl | rfl, hone⟩
    · exact ⟨hone, f, hf, .inl hdec⟩
    · exact ⟨hone, f, hf, .inr hdec⟩
  · cases h
    split <;> exact .inl rfl

theorem trace_hostRead (s : State) (off : Nat) : (s.hostRead off).trace = s.trace := (portsQuiet_hostRead s off).1

/-- No host write makes a port transaction: a reset issues no flush (R229, 70_reset_and_hazards.md R271). -/
theorem trace_hostWrite (s : State) (off : Nat) (v : Word) : (s.hostWrite off v).trace = s.trace := by
  rcases hostWrite_cases s off v with ⟨_, h⟩ | ⟨_, h⟩ | ⟨_, h⟩ | ⟨_, h⟩ | ⟨_, h⟩ <;> rw [h]
  · rcases writeCtrl_cases s v with ⟨_, h⟩ | ⟨_, h⟩ <;> rw [h]
    exact State.resetBlock_trace s
  · rfl
  · rcases deliverCommand_cases s v with ⟨_, h⟩ | ⟨_, _, h⟩ | ⟨_, _, h⟩ <;> rw [h]
    exact State.accept_trace s v

/-- Settles O21: of the moves only the core's can make a transaction, and it does so only for RUN and CLOSE. -/
theorem portsUsedOnlyByRunAndClose : Obligations.PortsUsedOnlyByRunAndClose := by
  intro s t h hmoved
  cases step_move h with
  | core evs _ hcore => exact (coreStep_ports hcore).resolve_left hmoved
  | hostRead width addr off rest _ _ ht => subst ht; exact absurd (trace_hostRead _ off) hmoved
  | hostWrite width addr off v rest _ _ ht => subst ht; exact absurd (trace_hostWrite _ off v) hmoved
  | pollEnds rest _ _ ht => subst ht; exact absurd rfl hmoved
  | hardReset rest _ ht => subst ht; exact absurd (State.resetBlock_trace _) hmoved

end Sys2Proof.Machine
end

section
/-! PROOFS. Faults, the overrun flag and the interrupt level (60_exceptions.md R241 to R247).

What a step does to the flags, the enables and the error held is said once (`FlagMove`): a reset, one of the host's writes to
CTRL, STATUS and CMD, or a move that lets them stand. Which moves can clear each of them is read off it. -/

namespace Sys2Proof.Machine

/-! ## Taking a fault (R241) -/

/-- Settles O18. -/
theorem faultEntryHoldsCodeAndWords : Obligations.FaultEntryHoldsCodeAndWords := raise_faultedLike

/-! ## CMD in FAULT and while BUSY (R245, R246) -/

theorem deliverCommand_of_fault {s : State} (hfault : s.state = .fault) (w : Word) : s.deliverCommand w = s := by
  rcases deliverCommand_cases s w with ⟨_, h⟩ | ⟨hst, _⟩ | ⟨hst, _⟩
  · exact h
  · exact absurd hfault hst
  · exact absurd hfault hst

theorem deliverCommand_of_busy {s : State} (hst : s.state ≠ .fault) (hbusy : s.busy = true) (w : Word) :
    s.deliverCommand w = { s with ovr := true } := by
  rcases deliverCommand_cases s w with ⟨hfault, _⟩ | ⟨_, _, h⟩ | ⟨_, hidle, _⟩
  · exact absurd hfault hst
  · exact h
  · simp [hbusy] at hidle

/-- Settles O10: nothing is in flight, so every register reads its value, and the writes to the other registers act as outside
FAULT. -/
theorem cmdWriteIgnoredInFault : Obligations.CmdWriteIgnoredInFault := by
  intro s rest hfault hidle
  refine ⟨fun w hev => ?cmd, fun off halign hlt hev => ?read, fun v hev => ?din, fun v hsrst hev => ?ctrl,
    fun v hev => ?status⟩
  case cmd =>
    rw [step_hostWrite hev (by decide) (by decide)]
    exact congrArg _ (deliverCommand_of_fault (s := { s with events := rest }) hfault w)
  case read =>
    obtain ⟨hread, _⟩ := hostReadsAnswerAndChangeNothing s off rest halign hlt hev
    exact hread (.inl (by simp [State.busy, hidle]))
  case din =>
    obtain ⟨_, _, _, hdin, _⟩ := hostWritesActOnTheirRegister s 0x14 v rest (by decide) (by decide) hev
    exact hdin rfl
  case ctrl =>
    obtain ⟨_, hctrl, _⟩ := hostWritesActOnTheirRegister s 0x08 v rest (by decide) (by decide) hev
    exact hctrl rfl hsrst
  case status =>
    obtain ⟨_, _, hstatus, _⟩ := hostWritesActOnTheirRegister s 0x0C v rest (by decide) (by decide) hev
    exact hstatus rfl

/-! ## Write-1-to-clear (10_state.md R37, 20_memory.md R59) -/

theorem done_clearStatus_clears {v : Word} (s : State) (hbit : v.getLsbD 4 = true) : (s.clearStatus v).done = false := by
  rw [clearStatus_eq]
  exact if_pos hbit

theorem done_clearStatus_keeps {v : Word} (s : State) (hbit : v.getLsbD 4 = false) : (s.clearStatus v).done = s.done := by
  rw [clearStatus_eq]
  exact if_neg (Bool.eq_false_iff.mp hbit)

theorem ovr_clearStatus_keeps {v : Word} (s : State) (hbit : v.getLsbD 5 = false) : (s.clearStatus v).ovr = s.ovr := by
  rw [clearStatus_eq]
  exact if_neg (Bool.eq_false_iff.mp hbit)

/-! ## What a step does to the flags, the enables and the error held -/

/-- The host's write of `v` to the register at offset `off` is the next move. -/
def State.HostWriteIsNext (s : State) (off : Nat) (v : Word) : Prop :=
  s.events.head? = some (.host (.write 4 (s.base + off) v))

theorem hostWriteIsNext_of_offset {s : State} {width addr off : Nat} {v : Word} {rest : List Event}
    (hev : s.events = .host (.write width addr v) :: rest) (hoff : windowOffset s.base width addr = .next off) :
    s.HostWriteIsNext off v := by
  obtain ⟨hlow, _, rfl, _, rfl⟩ := windowOffset_next_iff.mp hoff
  simp [State.HostWriteIsNext, hev, Nat.add_sub_cancel' hlow]

theorem resetIsNext_of_hostWrite {s : State} {v : Word} (hnext : s.HostWriteIsNext 0x08 v) (hsrst : v.getLsbD 0 = true) :
    s.ResetIsNext := .inr ⟨v, hnext, hsrst⟩

/-- FAULT is still held, with the same error (R244). -/
def HoldsSameError (s t : State) : Prop :=
  t.state = .fault ∧ t.err = s.err ∧ t.errInfo0 = s.errInfo0 ∧ t.errInfo1 = s.errInfo1

/-- OVR and the enables are as they were, DONE has not fallen, and a fault that was held still is. -/
structure FlagsStand (s t : State) : Prop where
  ovr : t.ovr = s.ovr
  ieDone : t.ieDone = s.ieDone
  ieFault : t.ieFault = s.ieFault
  done : s.done = true → t.done = true
  fault : s.state = .fault → HoldsSameError s t

/-- Where only the moves, DIN, what the host reads and the counter behind free values differ. -/
theorem flagsStand_frame (s : State) (events : List Event) (din : Byte) (rdata : Option Word) (freeCtr : Nat) :
    FlagsStand s { s with events := events, din := din, rdata := rdata, freeCtr := freeCtr } :=
  ⟨rfl, rfl, rfl, id, fun hfault => ⟨hfault, rfl, rfl, rfl⟩⟩

/-- Taking a move off the list touches nothing `FlagsStand` speaks of. -/
theorem FlagsStand.of_events {s t : State} {events : List Event} (h : FlagsStand { s with events := events } t) :
    FlagsStand s t := ⟨h.ovr, h.ieDone, h.ieFault, h.done, h.fault⟩

/-- No command runs in FAULT (R245). -/
theorem coreStep_of_fault {s t : State} (hfault : s.state = .fault) (h : coreStep s = .next t) : t = s := by
  rcases coreStep_cases s with ⟨_, h'⟩ | ⟨f, i, _, _, h'⟩ | ⟨f, e, _, _, h'⟩ <;> rw [h'] at h
  · exact (Host.Outcome.next.inj h).symm
  · rw [exec_eq_checked, checked_fault _ hfault] at h
    exact (Host.Outcome.next.inj h).symm
  · rw [if_pos hfault] at h
    exact (Host.Outcome.next.inj h).symm

/-- A command sets DONE or leaves it. -/
theorem done_stands_coreStep {s t : State} (h : coreStep s = .next t) (hdone : s.done = true) : t.done = true := by
  rcases done_coreStep_cases h with rfl | ⟨_, hkept | ⟨u, _, rfl⟩⟩
  · exact hdone
  · exact hkept.trans hdone
  · rfl

theorem flagsStand_coreStep {s t : State} (h : coreStep s = .next t) : FlagsStand s t := by
  have hsame := hostSide_coreStep h
  refine ⟨hsame.ovr, hsame.ieDone, hsame.ieFault, done_stands_coreStep h, fun hfault => ?_⟩
  obtain rfl := coreStep_of_fault hfault h
  exact ⟨hfault, rfl, rfl, rfl⟩

theorem flagsStand_hostRead (s : State) (off : Nat) : FlagsStand s (s.hostRead off) := by
  unfold State.hostRead
  split <;> exact flagsStand_frame s _ _ _ _

/-- The six things a step can do to the flags, the enables and the error held; `rest` are the moves left. -/
inductive FlagMove (s t : State) : Prop
  | reset (hreset : s.ResetIsNext)
  | ctrl (v : Word) (rest : List Event) (hnext : s.HostWriteIsNext 0x08 v)
      (ht : t = { s with events := rest, ieDone := v.getLsbD 1, ieFault := v.getLsbD 2 })
  | status (v : Word) (rest : List Event) (hnext : s.HostWriteIsNext 0x0C v)
      (ht : t = ({ s with events := rest } : State).clearStatus v)
  | dropped (rest : List Event) (ht : t = { s with events := rest, ovr := true })
  | accepted (w : Word) (rest : List Event) (hst : s.state ≠ .fault) (hbusy : s.busy = false)
      (hnext : s.HostWriteIsNext 0x10 w) (ht : t = ({ s with events := rest } : State).accept w)
  | stand (hstand : FlagsStand s t)

theorem flagMove_hostWrite {s : State} {off : Nat} {v : Word} (rest : List Event) (hnext : s.HostWriteIsNext off v) :
    FlagMove s (({ s with events := rest } : State).hostWrite off v) := by
  rcases hostWrite_cases { s with events := rest } off v with
    ⟨rfl, h⟩ | ⟨rfl, h⟩ | ⟨rfl, h⟩ | ⟨_, h⟩ | ⟨_, h⟩ <;> rw [h]
  · rcases writeCtrl_cases { s with events := rest } v with ⟨hsrst, _⟩ | ⟨_, h⟩
    · exact .reset (resetIsNext_of_hostWrite hnext hsrst)
    · exact .ctrl v rest hnext h
  · exact .status v rest hnext rfl
  · rcases deliverCommand_cases { s with events := rest } v with ⟨_, h⟩ | ⟨_, _, h⟩ | ⟨hst, hbusy, h⟩
    · rw [h]
      exact .stand (flagsStand_frame s _ _ _ _)
    · exact .dropped rest h
    · exact .accepted v rest hst hbusy hnext h
  · exact .stand (flagsStand_frame s _ _ _ _)
  · exact .stand (flagsStand_frame s _ _ _ _)

theorem step_flagMove {s t : State} (h : step s = .next t) : FlagMove s t := by
  cases step_move h with
  | core evs _ hcore => exact .stand (flagsStand_coreStep hcore).of_events
  | hostRead width addr off rest _ _ ht => subst ht; exact .stand (flagsStand_hostRead _ off).of_events
  | hostWrite width addr off v rest hev hoff ht =>
    subst ht
    exact flagMove_hostWrite rest (hostWriteIsNext_of_offset hev hoff)
  | pollEnds rest _ _ ht => subst ht; exact .stand (flagsStand_frame s _ _ _ _)
  | hardReset rest hev _ => exact .reset (.inl (by simp [hev]))

/-! ## The overrun flag (R246) -/

/-- OVR falls only by a write of 1 to it or a reset. -/
theorem ovr_stands_or_cleared {s t : State} (h : step s = .next t) (hovr : s.ovr = true) :
    t.ovr = true ∨ s.ResetIsNext ∨ ∃ v : Word, v.getLsbD 5 = true ∧ s.HostWriteIsNext 0x0C v := by
  cases step_flagMove h with
  | reset hreset => exact .inr (.inl hreset)
  | ctrl v rest _ ht => subst ht; exact .inl hovr
  | status v rest hnext ht =>
    subst ht
    cases hbit : v.getLsbD 5 with
    | true => exact .inr (.inr ⟨v, hbit, hnext⟩)
    | false => exact .inl ((ovr_clearStatus_keeps _ hbit).trans hovr)
  | dropped rest ht => subst ht; exact .inl rfl
  | accepted w rest _ _ _ ht => subst ht; exact .inl hovr
  | stand hstand => exact .inl (hstand.ovr.trans hovr)

/-- Settles O11. -/
theorem cmdWriteDroppedWhileBusy : Obligations.CmdWriteDroppedWhileBusy := by
  refine ⟨fun s w rest hst hbusy hev => ?_, fun s t => ovr_stands_or_cleared⟩
  rw [step_hostWrite hev (by decide) (by decide)]
  exact congrArg _ (deliverCommand_of_busy (s := { s with events := rest }) hst hbusy w)

/-! ## The error held (R244) -/

/-- No move but a reset leaves FAULT: the writes to CTRL, STATUS and CMD touch neither STATE nor the error. -/
theorem error_held_or_reset {s t : State} (h : step s = .next t) (hfault : s.state = .fault) :
    HoldsSameError s t ∨ s.ResetIsNext := by
  cases step_flagMove h with
  | reset hreset => exact .inr hreset
  | ctrl v rest _ ht => subst ht; exact .inl ⟨hfault, rfl, rfl, rfl⟩
  | status v rest _ ht => subst ht; exact .inl ⟨hfault, rfl, rfl, rfl⟩
  | dropped rest ht => subst ht; exact .inl ⟨hfault, rfl, rfl, rfl⟩
  | accepted w rest hst _ _ _ => exact absurd hfault hst
  | stand hstand => exact .inl (hstand.fault hfault)

theorem State.ResetIsNext.events_cons {s : State} (h : s.ResetIsNext) : ∃ ev rest, s.events = ev :: rest := by
  cases hev : s.events with
  | cons ev rest => exact ⟨ev, rest, rfl⟩
  | nil => simp [State.ResetIsNext, hev] at h

/-- Settles O19. -/
theorem faultLeftOnlyByReset : Obligations.FaultLeftOnlyByReset := by
  intro s t hfault h
  refine ⟨fun hno => (error_held_or_reset h hfault).resolve_right hno, fun hreset => ?_⟩
  obtain ⟨ev, rest, hev⟩ := hreset.events_cons
  cases (step_reset hev hreset).symm.trans h
  exact ⟨rfl, rfl, rfl, rfl⟩

/-! ## The interrupt level (R247) -/

theorem irq_iff (s : State) :
    s.irq = true ↔ (s.ieDone = true ∧ s.done = true) ∨ (s.ieFault = true ∧ s.state = .fault) := by
  simp [State.irq]

/-- IRQ is down where both of its sources are. -/
theorem irq_eq_false {s : State} (hdone : s.ieDone = true → s.done = false) (hfault : s.ieFault = true → s.state ≠ .fault) :
    s.irq = false := by
  rw [Bool.eq_false_iff, Ne, irq_iff]
  rintro (⟨hie, hd⟩ | ⟨hie, hst⟩)
  · simp [hdone hie] at hd
  · exact hfault hie hst

theorem irq_resetBlock (s : State) : s.resetBlock.irq = false := rfl

/-- A write to CTRL leaves IRQ down if the enables it sets do, for a reset does as well. -/
theorem irq_writeCtrl {s : State} {v : Word} (hdone : v.getLsbD 1 = true → s.done = false)
    (hfault : v.getLsbD 2 = true → s.state ≠ .fault) : (s.writeCtrl v).irq = false := by
  rcases writeCtrl_cases s v with ⟨_, h⟩ | ⟨_, h⟩ <;> rw [h]
  · exact irq_resetBlock s
  · exact irq_eq_false hdone hfault

/-- A CTRL write with this bit 0 is the next move. -/
def State.CtrlClears (s : State) (bit : Nat) : Prop := ∃ v : Word, v.getLsbD bit = false ∧ s.HostWriteIsNext 0x08 v

/-- A write of 1 to STATUS.DONE is the next move. -/
def State.DoneIsCleared (s : State) : Prop := ∃ v : Word, v.getLsbD 4 = true ∧ s.HostWriteIsNext 0x0C v

/-- A CMD write that will be accepted is the next move (30_encoding.md R70). -/
def State.CommandIsAccepted (s : State) : Prop := s.state ≠ .fault ∧ s.busy = false ∧ ∃ w : Word, s.HostWriteIsNext 0x10 w

/-- DONE falls only by a write of 1 to it, an acceptance or a reset (10_state.md R48). -/
theorem done_stands_or_cleared {s t : State} (h : step s = .next t) (hdone : s.done = true) :
    t.done = true ∨ s.ResetIsNext ∨ s.DoneIsCleared ∨ s.CommandIsAccepted := by
  cases step_flagMove h with
  | reset hreset => exact .inr (.inl hreset)
  | ctrl v rest _ ht => subst ht; exact .inl hdone
  | status v rest hnext ht =>
    subst ht
    cases hbit : v.getLsbD 4 with
    | true => exact .inr (.inr (.inl ⟨v, hbit, hnext⟩))
    | false => exact .inl ((done_clearStatus_keeps _ hbit).trans hdone)
  | dropped rest ht => subst ht; exact .inl hdone
  | accepted w rest hst hbusy hnext _ => exact .inr (.inr (.inr ⟨hst, hbusy, w, hnext⟩))
  | stand hstand => exact .inl (hstand.done hdone)

/-- Only a reset or a write to CTRL changes the enables (10_state.md R36). -/
theorem enables_stand_or_written {s t : State} (h : step s = .next t) :
    (t.ieDone = s.ieDone ∧ t.ieFault = s.ieFault) ∨ s.ResetIsNext ∨
      ∃ v, s.HostWriteIsNext 0x08 v ∧ t.ieDone = v.getLsbD 1 ∧ t.ieFault = v.getLsbD 2 := by
  cases step_flagMove h with
  | reset hreset => exact .inr (.inl hreset)
  | ctrl v rest hnext ht => subst ht; exact .inr (.inr ⟨v, hnext, rfl, rfl⟩)
  | status v rest _ ht => subst ht; exact .inl ⟨rfl, rfl⟩
  | dropped rest ht => subst ht; exact .inl ⟨rfl, rfl⟩
  | accepted w rest _ _ _ ht => subst ht; exact .inl ⟨rfl, rfl⟩
  | stand hstand => exact .inl ⟨hstand.ieDone, hstand.ieFault⟩

theorem ieDone_stands_or_cleared {s t : State} (h : step s = .next t) (hie : s.ieDone = true) :
    t.ieDone = true ∨ s.ResetIsNext ∨ s.CtrlClears 1 := by
  rcases enables_stand_or_written h with ⟨hsame, _⟩ | hreset | ⟨v, hnext, hwritten, _⟩
  · exact .inl (hsame.trans hie)
  · exact .inr (.inl hreset)
  · cases hbit : v.getLsbD 1 with
    | true => exact .inl (hwritten.trans hbit)
    | false => exact .inr (.inr ⟨v, hbit, hnext⟩)

theorem ieFault_stands_or_cleared {s t : State} (h : step s = .next t) (hie : s.ieFault = true) :
    t.ieFault = true ∨ s.ResetIsNext ∨ s.CtrlClears 2 := by
  rcases enables_stand_or_written h with ⟨_, hsame⟩ | hreset | ⟨v, hnext, _, hwritten⟩
  · exact .inl (hsame.trans hie)
  · exact .inr (.inl hreset)
  · cases hbit : v.getLsbD 2 with
    | true => exact .inl (hwritten.trans hbit)
    | false => exact .inr (.inr ⟨v, hbit, hnext⟩)

/-- The DONE source, up, stands with DONE and IE_DONE. -/
theorem doneSource_stands_or_cleared {s t : State} (h : step s = .next t) (hie : s.ieDone = true) (hdone : s.done = true) :
    (t.ieDone = true ∧ t.done = true ∧ t.irq = true) ∨ s.ResetIsNext ∨ s.DoneIsCleared ∨ s.CommandIsAccepted ∨
      s.CtrlClears 1 := by
  rcases done_stands_or_cleared h hdone with hdone' | hreset | hcleared | haccepted
  · rcases ieDone_stands_or_cleared h hie with hie' | hreset | hctrl
    · exact .inl ⟨hie', hdone', (irq_iff t).mpr (.inl ⟨hie', hdone'⟩)⟩
    · exact .inr (.inl hreset)
    · exact .inr (.inr (.inr (.inr hctrl)))
  · exact .inr (.inl hreset)
  · exact .inr (.inr (.inl hcleared))
  · exact .inr (.inr (.inr (.inl haccepted)))

/-- The FAULT source, up, stands with FAULT and IE_FAULT. -/
theorem faultSource_stands_or_cleared {s t : State} (h : step s = .next t) (hie : s.ieFault = true)
    (hfault : s.state = .fault) :
    (t.ieFault = true ∧ t.state = .fault ∧ t.irq = true) ∨ s.ResetIsNext ∨ s.CtrlClears 2 := by
  rcases error_held_or_reset h hfault with ⟨hfault', _⟩ | hreset
  · rcases ieFault_stands_or_cleared h hie with hie' | hreset | hctrl
    · exact .inl ⟨hie', hfault', (irq_iff t).mpr (.inr ⟨hie', hfault'⟩)⟩
    · exact .inr (.inl hreset)
    · exact .inr (.inr hctrl)
  · exact .inr (.inl hreset)

/-- Settles O16. -/
theorem interruptLevelFollowsState : Obligations.InterruptLevelFollowsState := by
  intro s
  refine ⟨irq_iff s, ?accept, ?clearDone, ?clearIeDone, ?clearIeFault, irq_resetBlock s, ?step⟩
  case accept => exact fun hst w => irq_eq_false (fun _ => rfl) (fun _ => hst)
  case clearDone => exact fun hst v hbit => irq_eq_false (fun _ => done_clearStatus_clears s hbit) (fun _ => hst)
  case clearIeDone => exact fun hst v hbit => irq_writeCtrl (fun h => absurd h (Bool.eq_false_iff.mp hbit)) (fun _ => hst)
  case clearIeFault => exact fun _ hdone v hbit => irq_writeCtrl (fun _ => hdone) (fun h => absurd h (Bool.eq_false_iff.mp hbit))
  case step =>
    exact fun t h => ⟨done_stands_or_cleared h, doneSource_stands_or_cleared h, faultSource_stands_or_cleared h⟩

end Sys2Proof.Machine
end

section
/-! PROOFS. The key while an engine is open (70_reset_and_hazards.md R276).

The commands that change the key are legal in IDLE only (30_encoding.md R76), and of the other agents' moves only a reset
touches it. That every other operation leaves the key is said once per operation (`SameKey`). -/

namespace Sys2Proof.Machine

/-! ## What leaves the key (10_state.md R22) -/

/-- The key and its length stand as they were. -/
def SameKey (s t : State) : Prop := t.key = s.key ∧ t.keyLen = s.keyLen

theorem SameKey.refl (s : State) : SameKey s s := ⟨rfl, rfl⟩

theorem sameKey_raise (s : State) (f : FaultInfo) : SameKey s (s.raise f) := ⟨s.raise_key f, s.raise_keyLen f⟩

theorem sameKey_complete (s : State) : SameKey s s.complete := ⟨s.complete_key, s.complete_keyLen⟩

theorem sameKey_setPhase (s : State) (p : Phase) : SameKey s (s.setPhase p) := ⟨s.setPhase_key p, s.setPhase_keyLen p⟩

theorem sameKey_fetchRound (s : State) : SameKey s s.fetchRound := by
  rcases fetchRound_cases s with ⟨_, h⟩ | ⟨_, h⟩ <;> rw [h] <;> exact ⟨rfl, rfl⟩

theorem sameKey_byteStep {s t : State} {b out : Byte} (h : s.byteStep b = .ok (t, out)) : SameKey s t := by
  rcases byteStep_cases s b with ⟨_, h'⟩ | ⟨_, h'⟩ <;> rw [h'] at h <;> cases h
  exact ⟨rfl, rfl⟩

/-! ## The commands legal in READY (30_encoding.md R76) -/

theorem sameKey_xformStep (s : State) : SameKey s (xformStep s) := by
  unfold xformStep
  split
  · exact sameKey_fetchRound s
  · split
    · exact sameKey_raise s _
    · next t out hbyte =>
      have hcommitted : SameKey s t := sameKey_byteStep hbyte
      exact hcommitted

theorem sameKey_chainNextStep (s : State) : SameKey s (chainNextStep s) := by
  have hround := sameKey_fetchRound s
  unfold chainNextStep
  split <;> exact hround

theorem sameKey_flushOrFault {onOk : State → State} (hok : ∀ t, SameKey t (onOk t)) (s : State) :
    SameKey s (flushOrFault onOk s) := by
  cases h : s.snkFlush with
  | nil => rw [flushOrFault_waits onOk h]; exact .refl s
  | cons a rest =>
    cases a with
    | ok _ => rw [flushOrFault_ok onOk h]; exact hok (s.flushed (.ok ()) rest)
    | err e => rw [flushOrFault_err onOk h]; exact sameKey_raise (s.flushed (.err e) rest) _

theorem sameKey_closeStep (s : State) : SameKey s (closeStep s) := by
  unfold closeStep
  exact sameKey_flushOrFault (fun t => sameKey_complete { t with state := .idle }) s

theorem sameKey_runAskMore (s : State) : SameKey s (runAskMore s) := by
  cases h : s.srcMore with
  | nil => rw [runAskMore_waits h]; exact .refl s
  | cons a rest => rw [runAskMore_answered h]; exact sameKey_setPhase (s.asked a rest) _

theorem sameKey_runTakeByte (s : State) : SameKey s (runTakeByte s) := by
  cases h : s.srcNext with
  | nil => rw [runTakeByte_waits h]; exact .refl s
  | cons a rest => rw [runTakeByte_answered h]; exact sameKey_setPhase (s.taken a rest) _

theorem sameKey_runByteStep (b : Byte) (s : State) : SameKey s (runByteStep b s) := by
  unfold runByteStep
  split
  · exact sameKey_fetchRound s
  · split
    · exact sameKey_setPhase s _
    · next t out hbyte =>
      have hcommitted : SameKey s t := sameKey_byteStep hbyte
      exact hcommitted

theorem sameKey_runPutByte (out : Byte) (s : State) : SameKey s (runPutByte out s) := by
  cases h : s.snkWrite with
  | nil => rw [runPutByte_waits out h]; exact .refl s
  | cons a rest => rw [runPutByte_answered h]; exact sameKey_setPhase (s.written out a rest) _

theorem sameKey_runFaultFlush (f : FaultInfo) (s : State) : SameKey s (runFaultFlush f s) := by
  unfold runFaultFlush
  rcases snkSync_cases s with ⟨_, h⟩ | ⟨a, rest, _, h⟩ <;> rw [h]
  · exact .refl s
  · exact sameKey_raise (s.flushed a rest) f

theorem sameKey_runStep (s : State) : SameKey s (runStep s) := by
  unfold runStep
  cases s.phase with
  | top => exact sameKey_runAskMore s
  | needByte => exact sameKey_runTakeByte s
  | haveByte b => exact sameKey_runByteStep b s
  | putByte out => exact sameKey_runPutByte out s
  | finalFlush => exact sameKey_flushOrFault sameKey_complete s
  | faultFlush f => exact sameKey_runFaultFlush f s

/-- KEY_CLEAR and KEY_PUSH are not legal in READY. -/
theorem sameKey_ownStep {i : Instr} (hlegal : legalIn i .ready = true) (s : State) : SameKey s (ownStep i s) := by
  cases i with
  | nop | drd => exact ⟨rfl, rfl⟩
  | close => exact sameKey_closeStep s
  | xform => exact sameKey_xformStep s
  | run => exact sameKey_runStep s
  | chainNext => exact sameKey_chainNextStep s
  | keyClear | keyPush | openEnc | openDec | bigAdd | sensLoad | sensAdd | sensSqfold | sensExtract | dwr => cases hlegal

/-! ## Every move but a reset -/

theorem sameKey_exec {i : Instr} {s t : State} (hready : s.state = .ready) (h : exec i s = .next t) : SameKey s t := by
  rw [exec_eq_checked] at h
  rcases checked_cases h with ⟨_, rfl⟩ | ⟨_, _, rfl⟩ | ⟨_, _, _, rfl⟩ | ⟨_, hlegal, _, rfl⟩
  · exact .refl t
  · exact sameKey_raise s _
  · exact sameKey_raise s _
  · exact sameKey_ownStep (hready ▸ hlegal) s

theorem sameKey_coreStep {s t : State} (hready : s.state = .ready) (h : coreStep s = .next t) : SameKey s t := by
  rcases coreStep_cases s with ⟨_, h'⟩ | ⟨f, i, _, _, h'⟩ | ⟨f, e, _, _, h'⟩ <;> rw [h'] at h
  · cases h
    exact .refl s
  · exact sameKey_exec hready h
  · rw [if_neg (by simp [hready])] at h
    cases h
    exact sameKey_raise s _

theorem sameKey_hostRead (s : State) (off : Nat) : SameKey s (s.hostRead off) := by
  unfold State.hostRead
  split <;> exact ⟨rfl, rfl⟩

/-- Of the host's writes only SRST to CTRL touches the key (10_state.md R36). -/
theorem sameKey_hostWrite {off : Nat} {v : Word} (s : State) (hno : ¬ (off = 0x08 ∧ v.getLsbD 0 = true)) :
    SameKey s (s.hostWrite off v) := by
  rcases hostWrite_cases s off v with ⟨hctrl, h⟩ | ⟨_, h⟩ | ⟨_, h⟩ | ⟨_, h⟩ | ⟨_, h⟩ <;> rw [h]
  · rcases writeCtrl_cases s v with ⟨hsrst, _⟩ | ⟨_, h⟩
    · exact absurd ⟨hctrl, hsrst⟩ hno
    · rw [h]
      exact ⟨rfl, rfl⟩
  · exact ⟨rfl, rfl⟩
  · rcases deliverCommand_cases s v with ⟨_, h⟩ | ⟨_, _, h⟩ | ⟨_, _, h⟩ <;> rw [h] <;> exact ⟨rfl, rfl⟩
  · exact ⟨rfl, rfl⟩
  · exact .refl s

/-- Settles O20: the core's move runs only commands that leave the key, and a host write that touches it is a reset. -/
theorem keyFixedWhileOpen : Obligations.KeyFixedWhileOpen := by
  intro s t hready hstep hno
  cases step_move hstep with
  | core evs _ hcore => exact sameKey_coreStep (s := { s with events := evs }) hready hcore
  | hostRead width addr off rest _ _ ht =>
    subst ht
    exact sameKey_hostRead { s with events := rest } off
  | hostWrite width addr off v rest hev hoff ht =>
    subst ht
    refine sameKey_hostWrite { s with events := rest } ?_
    rintro ⟨rfl, hsrst⟩
    exact hno (resetIsNext_of_hostWrite (hostWriteIsNext_of_offset hev hoff) hsrst)
  | pollEnds rest _ _ ht => subst ht; exact ⟨rfl, rfl⟩
  | hardReset rest hev _ => exact absurd (.inl (by simp [hev])) hno

end Sys2Proof.Machine
end
